-- ==== Sys2Proof/Word.lean ====
section
/-! DEFINITION. Word.lean: the word types of the HX24 (samples, stage clock positions, positions in sixteenths,
line characters, station ids), the four voices, and a record of one value per voice. -/

namespace Sys2Proof

/-- A character's eight data bits on the stage line (R158). -/
abbrev Byte := BitVec 8

/-- A 24-bit two's-complement audio sample (R1). -/
abbrev Sample := BitVec 24

/-- A stage clock value, which is also a sample or output position (R9, R128). -/
abbrev Pos := BitVec 24

/-- A position in sixteenths of a sample, modulo 2^28 (R35, R128). -/
abbrev Pos16 := BitVec 28

/-- A station id 0..15 (00_scope.md, Terms). -/
abbrev StationId := BitVec 4

/-- The voice index 0..3 of a harmony channel. -/
inductive Voice where
  | v0 | v1 | v2 | v3
deriving DecidableEq, Repr

/-- The voice's number. -/
def Voice.index : Voice → Nat
  | .v0 => 0
  | .v1 => 1
  | .v2 => 2
  | .v3 => 3

/-- The voice of a two-bit index. -/
def Voice.ofBits (b : BitVec 2) : Voice :=
  if b = 0#2 then .v0 else if b = 1#2 then .v1 else if b = 2#2 then .v2 else .v3

/-- The other voice of the pair (00_scope.md: voices 0 and 1, or voices 2 and 3). -/
def Voice.partner : Voice → Voice
  | .v0 => .v1
  | .v1 => .v0
  | .v2 => .v3
  | .v3 => .v2

/-- All voices, in index order. -/
def Voice.all : List Voice := [.v0, .v1, .v2, .v3]

/-- One value for each voice. -/
structure Quad (α : Type) where
  q0 : α
  q1 : α
  q2 : α
  q3 : α
deriving DecidableEq, Repr

/-- The value of voice v. -/
def Quad.get {α : Type} (q : Quad α) : Voice → α
  | .v0 => q.q0
  | .v1 => q.q1
  | .v2 => q.q2
  | .v3 => q.q3

/-- The record with voice v's value replaced. -/
def Quad.set {α : Type} (q : Quad α) (v : Voice) (a : α) : Quad α :=
  match v with
  | .v0 => { q with q0 := a }
  | .v1 => { q with q1 := a }
  | .v2 => { q with q2 := a }
  | .v3 => { q with q3 := a }

/-- A record computed voice by voice. -/
def Quad.ofFn {α : Type} (f : Voice → α) : Quad α := ⟨f .v0, f .v1, f .v2, f .v3⟩

/-- The same value for every voice. -/
def Quad.const {α : Type} (a : α) : Quad α := ⟨a, a, a, a⟩

/-- The values in index order. -/
def Quad.toList {α : Type} (q : Quad α) : List α := [q.q0, q.q1, q.q2, q.q3]

/-- The position of a whole sample, in sixteenths. -/
def Pos.sixteenths (p : Pos) : Pos16 := p ++ 0#4

end Sys2Proof
end

