-- ==== Sys2Proof/Config.lean ====
section
/-! DEFINITION. Config.lean: the constants of the HX24, each with the rule of spec/ that gives it. The spec leaves no
result of an operation undefined, so there is no free value here (log 21). -/

namespace Sys2Proof.Config

/-- Samples held by the capture ring (R8). -/
abbrev ringSize : Nat := 4096
/-- Entries of an overlap buffer (R127). -/
abbrev overlapSize : Nat := 2048
/-- Samples between an output position and its dry sample (R12). -/
abbrev dryDelay : Nat := 768
/-- Bits of a sample in slot 0 (R1). -/
abbrev sampleBits : Nat := 24
/-- Slot bits of an output frame (R3, R4). -/
abbrev frameBits : Nat := 256
/-- Line oscillator periods in the loss timer's 1 ms (R13). -/
abbrev lossLimit : Nat := 24000
/-- Fresh samples that end WARMING, and samples in an analysis window (R18, R19). -/
abbrev windowSize : Nat := 2048
/-- Samples between analysis ticks (R10). -/
abbrev tickSpacing : Nat := 256
/-- Shortest lag of the search (R23). -/
abbrev minLag : Nat := 24
/-- Longest lag of the search (R23). -/
abbrev maxLag : Nat := 896
/-- Terms of a difference D (R23). -/
abbrev differenceTerms : Nat := 1024
/-- Sixteenths behind the newest sample beyond which a mark is too old (R36 to R39). -/
abbrev markReach : Nat := 36864
/-- Period of an unvoiced mark, in sixteenths (R38). -/
abbrev unvoicedPeriod : Nat := 2048
/-- Lowest note of the period table (R40). -/
abbrev lowNote : Nat := 33
/-- Highest note of the period table (R40). -/
abbrev highNote : Nat := 93
/-- Unison in Q2.12 form (00_scope.md, Step format). -/
abbrev unison : Nat := 4096
/-- Smallest step (R82). -/
abbrev minStep : Nat := 2048
/-- Largest step (R82). -/
abbrev maxStep : Nat := 8192
/-- Places in the claim queue (R92). -/
abbrev queueSize : Nat := 8
/-- Age from which a voice is settled (R105). -/
abbrev settledAge : Nat := 16
/-- Silence at which a peer entry is removed (R102). -/
abbrev expirySilence : Nat := 64
/-- Decisions after which an unchanged record is sent again (R121). -/
abbrev refreshDecisions : Nat := 16
/-- Limit of decisions since placement (R110). -/
abbrev placementLimit : Nat := 8
/-- Full ramp count (R127). -/
abbrev fullRamp : Nat := 256
/-- Positions between a placement point and its grain's first position (R137, R138). -/
abbrev placementLead : Nat := 64
/-- Sixteenths by which a source target lies behind its output mark (R138). -/
abbrev sourceDelay : Nat := 12288
/-- Idle bit times that end a frame (R159). -/
abbrev boundaryIdle : Nat := 12
/-- Bit times at which the idle time saturates (R159). -/
abbrev maxIdle : Nat := 74
/-- Bit times of space that make a break (R164). -/
abbrev breakRun : Nat := 40
/-- Longest payload (R162, R176). -/
abbrev maxPayload : Nat := 60
/-- Most characters of a frame (R162). -/
abbrev maxFrame : Nat := 64
/-- Consecutive collisions that give up a frame (R173). -/
abbrev giveUpCollisions : Nat := 8
/-- Where a 16-bit event counter stops (R182). -/
abbrev counterLimit : Nat := 65535
/-- Where a voice or claim age stops (R101, R113). -/
abbrev maxAge : Nat := 255

end Sys2Proof.Config
end

