-- ==== Sys2Proof/Syntax.lean ====
section
/-! DEFINITION. Syntax.lean: the commands of the HX24, one constructor for each row of spec/opcode_table.json, with
the operands the row's event carries. -/

namespace Sys2Proof

/-- Levels of the strap pins (00_scope.md, Pin summary; R5). Each field is the pins' binary code. -/
structure StrapPins where
  id : StationId
  group : BitVec 2
  tune : BitVec 2
  fs : BitVec 1
  rate : BitVec 1
  nv : BitVec 2
deriving DecidableEq, Repr

/-- One voice claim of a CLAIM frame, as received (R92, R178). -/
structure ClaimItem where
  voice : Voice
  doubled : Bool
  note : Byte
  age : Byte
deriving DecidableEq, Repr

/-- The contents of a CLAIM frame, as received (R92). -/
structure ClaimMsg where
  sender : StationId
  live : Byte
  items : List ClaimItem
deriving DecidableEq, Repr

/-- One voice rule of a SCENE frame, as received (R179 layout): signed fields are still bytes. -/
structure RawRule where
  mode : Byte
  primary : Byte
  level : Byte
  pan : Byte
  flags : Byte
  alternates : List Byte
deriving DecidableEq, Repr

/-- The contents of a SCENE frame after its group mask, as received (R60, R179). -/
structure SceneMsg where
  number : Byte
  root : Byte
  scale : Byte
  threshold : Byte
  gate : Byte
  options : Byte
  glide : Byte
  switchMode : Byte
  delay : BitVec 24
  rules : Quad RawRule
deriving DecidableEq, Repr

/-- The commands: one constructor per row of spec/opcode_table.json. -/
inductive Instr where
  /-- A falling edge of RESET_N (R6). -/
  | resetAssert
  /-- The rising edge of RESET_N, with the strap levels (R5) and whether LINE_RX is at mark then (R160). -/
  | resetRelease (pins : StrapPins) (lineAtMark : Bool)
  /-- A frame sync on AFSYNC (R1). -/
  | frameSync
  /-- The 24th bit of slot 0 completes this sample (R1). -/
  | sampleArrival (sample : Sample)
  /-- The loss timer expires (R13, R14). -/
  | lossOfAudio
  /-- The tracker leaves WARMING (R18). -/
  | leaveWarming
  /-- The analysis tick is handed to the tracker (R10). -/
  | analysisTick
  /-- The arrival that would overwrite the analysis window (R34). -/
  | windowOverwrite
  /-- The running ANALYSIS segment completes (R21). -/
  | segmentCompletion
  /-- Peer entries whose silence has reached 64 are removed (R102). -/
  | peerEntryExpiry
  /-- A pending AT_DELAY scene reaches its due point (R66). -/
  | sceneDuePoint
  /-- The placement point of a channel becomes due (R137). -/
  | placementPointDue (voice : Voice)
  /-- The running FETCH completes (R135). -/
  | fetchCompletion
  /-- A FETCH is withdrawn because its grain's oldest sample is overwritten (R135). -/
  | fetchWithdrawal (voice : Voice)
  /-- The running PLACE completes (R138). -/
  | placeCompletion
  /-- The first position of a grain becomes due before its PLACE has completed (R142). -/
  | grainDrop (voice : Voice)
  /-- An ENTERING voice's ramp count has reached 256 (R139). -/
  | enteringRampFull (voice : Voice)
  /-- A LEAVING voice's ramp count has reached 0 (R144). -/
  | cycleStop (voice : Voice)
  /-- A start bit found in READY (R161). -/
  | frameStart
  /-- A complete character (R162). -/
  | characterReceived (char : Byte)
  /-- The line returns to mark after space (R163). -/
  | lineReturnToMark
  /-- The idle time reaches 12 bit times (R166). -/
  | frameBoundary
  /-- A CLAIM is accepted (R93). -/
  | claim (msg : ClaimMsg)
  /-- A SCENE is accepted; `capture` is its frame's arrival capture (R60, R65). -/
  | scene (capture : Pos) (msg : SceneMsg)
  /-- A CONTROL with action BYPASS_ON is accepted (R69). -/
  | bypassOn
  /-- A CONTROL with action BYPASS_OFF is accepted (R69). -/
  | bypassOff
  /-- A QUERY addressed to this station is accepted, with its clear option (R180). -/
  | query (clear : Bool)
  /-- The space run reaches 40 bit times (R164). -/
  | hush
  /-- The idle time reaches the transmitter's gap (R170). -/
  | sendStart
  /-- The end of a sent character; `heard` is the character heard back, none where it was heard with its stop bit at
  space or not heard at all (R171). -/
  | echoCheck (heard : Option Byte)
  /-- A start bit found while the receiver is not READY (R161). -/
  | startBit
deriving DecidableEq, Repr

end Sys2Proof
end

