-- ==== Sys2Proof/WellFormed.lean ====
section
/-! DEFINITION. WellFormed.lean: which commands the line can bring. A CLAIM carries at most four voice claims (R93,
R178); each rule of a SCENE carries at most three alternates (R60, R179). Every other operand's type holds its range. -/

namespace Sys2Proof

/-- A CLAIM's voice claim count lies in 0..4 (R93, R178). -/
def ClaimMsg.wellFormed (m : ClaimMsg) : Bool := decide (m.items.length ≤ 4)

/-- A rule's alternate count lies in 0..3 (R60, R179). -/
def RawRule.wellFormed (r : RawRule) : Bool := decide (r.alternates.length ≤ 3)

/-- Every rule's alternate count lies in 0..3 (R60, R179). -/
def SceneMsg.wellFormed (m : SceneMsg) : Bool := m.rules.toList.all RawRule.wellFormed

/-- A command that the line can bring. -/
def Instr.wellFormed : Instr → Bool
  | .claim m => m.wellFormed
  | .scene _ m => m.wellFormed
  | .resetAssert => true
  | .resetRelease _ _ => true
  | .frameSync => true
  | .sampleArrival _ => true
  | .lossOfAudio => true
  | .leaveWarming => true
  | .analysisTick => true
  | .windowOverwrite => true
  | .segmentCompletion => true
  | .peerEntryExpiry => true
  | .sceneDuePoint => true
  | .placementPointDue _ => true
  | .fetchCompletion => true
  | .fetchWithdrawal _ => true
  | .placeCompletion => true
  | .grainDrop _ => true
  | .enteringRampFull _ => true
  | .cycleStop _ => true
  | .frameStart => true
  | .characterReceived _ => true
  | .lineReturnToMark => true
  | .frameBoundary => true
  | .bypassOn => true
  | .bypassOff => true
  | .query _ => true
  | .hush => true
  | .sendStart => true
  | .echoCheck _ => true
  | .startBit => true

end Sys2Proof
end

