-- ==== Sys2Proof/Decode.lean ====
section
/-! DEFINITION. Decode.lean: the command that a word spells by the table's bits. spec/opcode_table.json gives bits for
none of its 31 rows (every row's "fields" is empty and none has "fixed"), so no word spells a command (log 23). -/

namespace Sys2Proof

/-- No row of the table gives bits, so every word is refused (log 23). -/
def decodeTableWord (_nbits _w : Nat) : Option Instr := none

end Sys2Proof
end

