-- ==== Sys2Proof/Machine/Tuning.lean ====
section
/-! DEFINITION. Machine/Tuning.lean: rounding, the period table (R40), the period-to-pitch conversion (R42, R43) and
the voice gain (R88), all in exact whole numbers. -/

namespace Sys2Proof.Machine

/-- n / d rounded to the nearest integer, an exact half upward (00_scope.md, Rounding). -/
def roundHalfUp (n : Int) (d : Nat) : Int := (2 * n + d) / (2 * d)

/-- Replaces a value outside lo..hi by the nearer end. -/
def clampInt (lo hi x : Int) : Int := if x < lo then lo else if hi < x then hi else x

/-- The 24-bit saturation of R89 and R90. -/
def saturate24 (x : Int) : Int := clampInt (-8388608) 8388607 x

/-- The greatest number below acc + 2^bits that satisfies p, for a p that holds up to some number and then no more;
acc where none above it does. -/
def greatest (p : Nat → Bool) : Nat → Nat → Nat
  | 0, acc => acc
  | bits + 1, acc => greatest p bits (if p (acc + 2 ^ bits) then acc + 2 ^ bits else acc)

/-- Aref in Hz from the TUNE straps (R5). -/
def arefHz (tune : BitVec 2) : Nat :=
  if tune = 0#2 then 440 else if tune = 1#2 then 442 else if tune = 2#2 then 444 else 438

/-- Samples per second from the FS strap (R5). -/
def sampleRate (fs : BitVec 1) : Nat := if fs = 0#1 then 48000 else 44100

/-- Line oscillator periods (24 MHz) in one bit time, from the RATE strap (R5): 1 µs or 4 µs. -/
def bitPeriods (rate : BitVec 1) : Nat := if rate = 0#1 then 24 else 96

/-- Whether NPT[n] is at least m. The real quotient 16 fs / (Aref 2^((n-69)/12)) is at least m - 1/2 exactly when the
twelfth powers compare so (R40). -/
def periodAtLeast (aref fs n m : Nat) : Bool :=
  decide ((2 * m - 1) ^ 12 * aref ^ 12 * 2 ^ (n - 33) ≤ (32 * fs) ^ 12 * 2 ^ 36)

/-- NPT[n], round-half-up(16 fs / (Aref 2^((n-69)/12))), for n in 33..93 (R40). -/
def notePeriod (aref fs n : Nat) : Nat := greatest (periodAtLeast aref fs n) 14 0

/-- The period table for the latched Aref and fs: the entries of notes 33..93 in order (R40). -/
def periodTable (tune : BitVec 2) (fs : BitVec 1) : List Nat :=
  (List.range 61).map fun i => notePeriod (arefHz tune) (sampleRate fs) (33 + i)

/-- NPT[n] read from the table. -/
def nptEntry (npt : List Nat) (n : Nat) : Nat := npt.getD (n - Config.lowNote) 0

/-- The note n in 33..92 with NPT[n] ≥ P > NPT[n+1] (R43 step 1). -/
def findInterval (npt : List Nat) (p : Nat) : Option Nat :=
  ((List.range 60).map (· + Config.lowNote)).find? fun n =>
    decide (p ≤ nptEntry npt n) && decide (nptEntry npt (n + 1) < p)

/-- The note and cents of a period, or none where it is OUT_OF_RANGE (R42, R43). -/
def periodToPitch (npt : List Nat) (p : Nat) : Option (Nat × Int) :=
  if nptEntry npt Config.lowNote < p then none
  else if p < nptEntry npt Config.highNote then none
  else if p = nptEntry npt Config.highNote then some (Config.highNote, 0)
  else
    match findInterval npt p with
    | none => none
    | some n =>
      let c := roundHalfUp (100 * ((nptEntry npt n : Int) - p)) (nptEntry npt n - nptEntry npt (n + 1))
      if c ≤ 50 then some (n, c) else some (n + 1, c - 100)

/-- The gain of a level: round-half-up(32768 × 10^(-(127 - level)/40)), 0 for level 0 (R88). The quotient is at least
m - 1/2 exactly when the fortieth powers compare so. -/
def gain (level : Nat) : Nat :=
  if level = 0 then 0
  else greatest (fun m => decide ((2 * m - 1) ^ 40 * 10 ^ (127 - level) ≤ 65536 ^ 40)) 16 0

end Sys2Proof.Machine
end

