-- ==== Sys2Proof/Machine/Types.lean ====
section
/-! DEFINITION. Machine/Types.lean: the records and states of each block of the HX24, as plain data. Each type names
the rule of spec/ that gives it. -/

namespace Sys2Proof.Machine

/-- An addressed store: (address, value) pairs, addresses strictly rising, no value equal to what an unlisted address
reads as (zero for the capture ring, R6, and for an overlap buffer, R127). -/
abbrev Cells (α : Type) := List (Nat × α)

/-! ### Capture port -/

/-- Audio ABSENT or PRESENT (01 state table). -/
inductive AudioState where
  | absent | present
deriving DecidableEq, Repr

/-- An edge of ABCLK with what the capture port samples at it: AFSYNC at a falling edge, ADIN at a rising edge (R1). -/
inductive AudioEdge where
  | fall (afsync : Bool)
  | rise (adin : Bool)
deriving DecidableEq, Repr

/-- The output frame being driven: its position and eight slot values, fixed at its frame sync (R3), and the place of
the bit on ADOUT, 0 at the frame sync and 256 past the last slot bit (R4). -/
structure OutFrame where
  position : Pos
  slots : List Int
  driven : Nat
deriving DecidableEq, Repr

/-- The capture port and the output port (01 state table). -/
structure AudioPort where
  state : AudioState
  /-- AFSYNC as the previous falling edge of ABCLK found it (R1) -/
  syncHigh : Bool
  inputReg : Sample
  /-- how many bits of slot 0 the input sample register has taken since the frame sync, 0..24; none where no frame sync
  has come since reset release or a loss of audio (R1, R2) -/
  inputBits : Option Nat
  /-- line oscillator periods since the last frame sync; none where the timer is stopped (R13) -/
  lossTimer : Option Nat
  fresh : Nat
  /-- none while ADOUT is low outside any output frame (R4) -/
  out : Option OutFrame
deriving DecidableEq, Repr

/-! ### Pitch tracker -/

/-- What segment 2 leaves and the later segments refine (R21). -/
structure Search where
  bestLag : Nat
  bestD : Nat
  dmean : Nat
deriving DecidableEq, Repr

/-- The analysis context (R21). -/
structure Analysis where
  tick : Pos
  gate : Nat
  threshold : Nat
  segment : Nat
  level : Option Nat
  search : Option Search
deriving DecidableEq, Repr

/-- The tracker's state (R17); the context is present in ANALYSING alone. -/
inductive Tracker where
  | absent
  | warming
  | waiting
  | analysing (a : Analysis)
deriving DecidableEq, Repr

/-- The reason of a result, with the fields that reason has (R29). -/
inductive Reason where
  | quiet
  | unsure
  | outOfRange
  | voiced (period : Nat) (note : Nat) (cents : Int)
deriving DecidableEq, Repr

/-- The result record (R29). -/
structure ResultRecord where
  frame : Pos
  reason : Reason
  conf : Nat
  level : Nat
deriving DecidableEq, Repr

/-- A pitch mark (R35). -/
structure Mark where
  pos : Pos16
  period : Nat
  voiced : Bool
deriving DecidableEq, Repr

/-! ### Note follower -/

/-- The follower's state with the notes, lapse count and live P that the state has (03 section 3.3, R44, R48). -/
inductive Follower where
  | rest
  | arming (candidate : Nat) (liveP : Nat)
  | held (note : Nat) (liveP : Nat)
  | changing (note : Nat) (candidate : Nat) (liveP : Nat)
  | lapsing (note : Nat) (count : Nat) (liveP : Nat)
deriving DecidableEq, Repr

/-! ### Scene holder -/

/-- The mode of a voice rule (R56). -/
inductive RuleMode where
  | off | diatonic | semitone
deriving DecidableEq, Repr

/-- The intonation of a voice rule (R56). -/
inductive Intonation where
  | correct | follow
deriving DecidableEq, Repr

/-- A voice rule (R56). -/
structure VoiceRule where
  mode : RuleMode
  primary : Int
  alternates : List Int
  level : Nat
  pan : Int
  intonation : Intonation
  doubling : Bool
deriving DecidableEq, Repr

/-- A scene record (R55). -/
structure Scene where
  number : Nat
  root : Nat
  scale : Nat
  threshold : Nat
  gate : Nat
  rubs : Bool
  glide : Nat
  rules : Quad VoiceRule
deriving DecidableEq, Repr

/-- The switch condition of a pending scene (04 state table). -/
inductive SwitchCondition where
  | atRest
  | atDelay (due : Pos)
deriving DecidableEq, Repr

/-- A pending scene with its switch condition. -/
structure PendingScene where
  scene : Scene
  condition : SwitchCondition
deriving DecidableEq, Repr

/-- The scene holder (04 state table). -/
structure SceneHolder where
  active : Scene
  pending : Option PendingScene
  bypass : Bool
deriving DecidableEq, Repr

/-! ### Stage map -/

/-- A voice claim of a peer entry (R97). -/
structure PeerVoice where
  voice : Voice
  note : Nat
  age : Nat
  doubled : Bool
deriving DecidableEq, Repr

/-- A peer entry (R97). -/
structure PeerEntry where
  id : StationId
  live : Option Nat
  silence : Nat
  voices : List PeerVoice
deriving DecidableEq, Repr

/-! ### Voice allocator -/

/-- A glide record (05 state table, R84). -/
structure Glide where
  origin : Nat
  length : Nat
  position : Nat
deriving DecidableEq, Repr

/-- What the allocator holds for one voice (R110). -/
structure VoiceAlloc where
  target : Option Nat
  age : Nat
  doubled : Bool
  unplaced : Bool
  postedStep : Option Nat
  glide : Option Glide
deriving DecidableEq, Repr

/-- One voice entry of a claim record (R119). -/
structure ClaimEntry where
  voice : Voice
  note : Nat
  age : Nat
  doubled : Bool
deriving DecidableEq, Repr

/-- A claim record (R119). -/
structure ClaimRecord where
  live : Option Nat
  entries : List ClaimEntry
deriving DecidableEq, Repr

/-- The voice allocator (R110). -/
structure Allocator where
  voices : Quad VoiceAlloc
  record : ClaimRecord
  lastSent : Option ClaimRecord
  sinceSend : Nat
  sincePlacement : Nat
deriving DecidableEq, Repr

/-! ### Grain renderer and mixer -/

/-- The voice states (R127). -/
inductive VoiceState where
  | off | parked | entering | sounding | gliding | leaving
deriving DecidableEq, Repr

/-- A grain: its source mark and its windowed samples, each with its offset from the mark in sixteenths (R135). -/
structure Grain where
  mark : Mark
  samples : List (Int × Int)
deriving DecidableEq, Repr

/-- The next grain register (R127). -/
inductive NextReg where
  | empty
  | fetching (mark : Mark)
  | ready (grain : Grain)
deriving DecidableEq, Repr

/-- A voice channel (R127). -/
structure Channel where
  state : VoiceState
  ramp : Nat
  rampStart : Option Pos
  leaveRate : Nat
  stepInForce : Option Nat
  outputMark : Option Pos16
  placementPoint : Option Pos
  current : Option Grain
  next : NextReg
  overlap : Cells Int
  /-- whether the grain cycle is running (R129, R132, R144, R145) -/
  cycleRunning : Bool
deriving DecidableEq, Repr

/-- The mixer's held samples of output slots 1 to 6 (R90, R128). -/
structure Mixer where
  voices : Quad Int
  left : Int
  right : Int
deriving DecidableEq, Repr

/-! ### Arithmetic unit and arbiter -/

/-- A job record (09 section 9.1). -/
inductive Job where
  | place (voice : Voice) (grain : Grain) (mark : Pos16)
  | fetch (owner : Voice) (partner : Option Voice) (mark : Mark)
  | analysis (tick : Pos) (segment : Nat)
deriving DecidableEq, Repr

/-- What the owner will make of the running job's completion: take it, add the grain and schedule nothing (a PLACE
granted before a hush, R145), add nothing and advance the cycle (a dropped PLACE, R142), or discard it (R153). -/
inductive Fate where
  | live | addsOnly | dropped | discarded
deriving DecidableEq, Repr

/-- The running job. -/
structure Running where
  job : Job
  fate : Fate
deriving DecidableEq, Repr

/-- The arithmetic unit (FREE where `running` is none) and the job list (09 state table). -/
structure Arbiter where
  running : Option Running
  list : List Job
deriving DecidableEq, Repr

/-! ### Line controller -/

/-- The receiver's state with the frame in reception (R161). -/
inductive Receiver where
  | gapWait
  | ready
  /-- characters so far, arrival capture, and whether the own station was SENDING at the first start bit (R168) -/
  | receiving (chars : List Byte) (capture : Pos) (whileSending : Bool)
  /-- SKIPPING with the reason GROUP and the kept sender id (R165) -/
  | skippingGroup (sender : StationId)
  /-- SKIPPING with the reason ERROR (R162, R163) -/
  | skippingError
  | breaking
deriving DecidableEq, Repr

/-- What LINE_RX is known to be doing (R158, R159, R163). -/
inductive LineRx where
  /-- at mark, outside any character -/
  | mark
  /-- inside a character: its data bits sampled so far, the first at the head, mark being true -/
  | character (bits : List Bool)
  /-- at space, where no start bit has just begun -/
  | space
deriving DecidableEq, Repr

/-- The transmitter's state (R170). -/
inductive Transmitter where
  | idle | deferring | sending | backoff
deriving DecidableEq, Repr

/-- The transmitter's two slots (R169). -/
inductive Slot where
  | claim | report
deriving DecidableEq, Repr

/-- The content a frame was built from (R169). -/
inductive SlotContent where
  | claim (record : ClaimRecord)
  | report (clear : Bool)
deriving DecidableEq, Repr

/-- The frame in hand (10 state table). -/
structure FrameInHand where
  chars : List Byte
  /-- characters already compared and matched (R171) -/
  sent : Nat
  content : SlotContent
  /-- whether the slot has been given another content since the frame was built (R169) -/
  replaced : Bool
deriving DecidableEq, Repr

/-- The line controller (10 state table). -/
structure LineControl where
  receiver : Receiver
  rx : LineRx
  spaceRun : Nat
  idle : Nat
  transmitter : Transmitter
  frameInHand : Option FrameInHand
  /-- the levels that the transmitter's own detector has heard of the character being sent; its length is the place of
  the bit on LINE_TX (R171) -/
  echo : List Bool
  claimSlot : Option ClaimRecord
  reportSlot : Option Bool
  collisions : Nat
  /-- the slot whose attempts' collisions the count holds (R172) -/
  collisionSlot : Option Slot
  lastSender : StationId
  clash : Bool
deriving DecidableEq, Repr

/-! ### Counters -/

/-- The twelve event counters (11 section 11.5). -/
inductive Counter where
  | late | repeats | drop | park | collide | giveUp | badFrame | inboxDrop | expire | clash | hush | clamp
deriving DecidableEq, Repr

/-- Their values. -/
structure Counters where
  late : Nat
  repeats : Nat
  drop : Nat
  park : Nat
  collide : Nat
  giveUp : Nat
  badFrame : Nat
  inboxDrop : Nat
  expire : Nat
  clash : Nat
  hush : Nat
  clamp : Nat
deriving DecidableEq, Repr

/-! ### Steps that have come about -/

/-- A frame that the receiver has found whole and well formed and has routed (R166). -/
inductive Accepted where
  | claim (msg : ClaimMsg)
  | scene (capture : Pos) (msg : SceneMsg)
  | bypassOn
  | bypassOff
  | query (clear : Bool)
deriving DecidableEq, Repr

/-- A step of the table that has come about with a sample arrival or a frame boundary and is not yet taken (log 1). -/
inductive Owed where
  | leaveWarming
  | analysisTick
  | windowOverwrite
  | sceneDuePoint
  | fetchWithdrawal (voice : Voice)
  | placementPointDue (voice : Voice)
  | grainDrop (voice : Voice)
  | enteringRampFull (voice : Voice)
  | cycleStop (voice : Voice)
  | accept (frame : Accepted)
deriving DecidableEq, Repr

end Sys2Proof.Machine
end

