-- ==== Sys2Proof/Machine/ResetValues.lean ====
section
/-! DEFINITION. Machine/ResetValues.lean: the value each block takes at reset, and holds while RESET_N is low. -/

namespace Sys2Proof.Machine

/-- The capture port at reset (R6, R11). That AFSYNC counts as low before the first falling edge after reset release is
a DESIGN CHOICE (log 35). -/
def resetAudio : AudioPort :=
  { state := .absent, syncHigh := false, inputReg := 0, inputBits := none, lossTimer := none, fresh := 0, out := none }

/-- The result record at reset (R17). -/
def resetResult : ResultRecord := { frame := 0, reason := .quiet, conf := 0, level := 0 }

/-- The default voice rule (R56). -/
def defaultRule : VoiceRule :=
  { mode := .off, primary := 0, alternates := [], level := 0, pan := 0, intonation := .correct, doubling := false }

/-- The default scene (R55). -/
def defaultScene : Scene :=
  { number := 0, root := 0, scale := 0, threshold := 160, gate := 8, rubs := false, glide := 0,
    rules := Quad.const defaultRule }

/-- The scene holder at reset (R58). -/
def resetScenes : SceneHolder := { active := defaultScene, pending := none, bypass := false }

/-- A voice of the allocator with no target, no posted step and no glide (R110). -/
def clearedVoice : VoiceAlloc :=
  { target := none, age := 0, doubled := false, unplaced := false, postedStep := none, glide := none }

/-- A record with no live note and no voices (R110). -/
def emptyRecord : ClaimRecord := { live := none, entries := [] }

/-- The allocator at reset (R110). -/
def resetAlloc : Allocator :=
  { voices := Quad.const clearedVoice, record := emptyRecord, lastSent := none,
    sinceSend := Config.refreshDecisions, sincePlacement := Config.placementLimit }

/-- A voice channel at reset (R127). -/
def resetChannel : Channel :=
  { state := .off, ramp := 0, rampStart := none, leaveRate := 1, stepInForce := none, outputMark := none,
    placementPoint := none, current := none, next := .empty, overlap := [], cycleRunning := false }

/-- The mixer holding zero for every slot (R128). -/
def silentMixer : Mixer := { voices := Quad.const 0, left := 0, right := 0 }

/-- The arithmetic unit FREE with an empty list (R149). -/
def resetArbiter : Arbiter := { running := none, list := [] }

/-- The line controller at reset (R160). -/
def resetLine (ownId : StationId) (lineAtMark : Bool) : LineControl :=
  { receiver := .gapWait, rx := if lineAtMark then .mark else .space, spaceRun := 0, idle := 0, transmitter := .idle,
    frameInHand := none, echo := [], claimSlot := none, reportSlot := none, collisions := 0, collisionSlot := none,
    lastSender := ownId, clash := false }

/-- All twelve counters at 0 (R182). -/
def zeroCounters : Counters :=
  { late := 0, repeats := 0, drop := 0, park := 0, collide := 0, giveUp := 0, badFrame := 0, inboxDrop := 0,
    expire := 0, clash := 0, hush := 0, clamp := 0 }

end Sys2Proof.Machine
end

