-- ==== Sys2Proof/Machine/State.lean ====
section
/-! DEFINITION. Machine/State.lean: the HX24's whole state as plain data, the reasons a step can stop, and the state
right after reset. -/

namespace Sys2Proof.Machine

/-- Everything the spec gives the HX24, one field or record per block (INVENTORY.md lists each with its rule), then the
model's own lists of what is to come. -/
structure State where
  /-- the level of RESET_N (R5, R6) -/
  resetN : Bool
  /-- the strap latch (R5) -/
  straps : StrapPins
  /-- the period table, notes 33..93 (R40) -/
  npt : List Nat
  /-- capture port and output port -/
  audio : AudioPort
  /-- the capture ring: entry p mod 4096 holds the sample at position p (R8) -/
  ring : Cells Sample
  /-- the stage clock (R9) -/
  clock : Pos
  tracker : Tracker
  result : ResultRecord
  /-- the mark list, oldest first (R35) -/
  marks : List Mark
  /-- the cover end, none where undefined (R36) -/
  coverEnd : Option Pos16
  /-- the model's own: the cover end has lain more than 36,864 sixteenths behind a newest sample (R36; log 32) -/
  coverFar : Bool
  follower : Follower
  scenes : SceneHolder
  /-- the claim queue, oldest first (R92) -/
  claimQueue : List ClaimMsg
  /-- the stage map, kept in id order (R97; log 20) -/
  map : List PeerEntry
  alloc : Allocator
  channels : Quad Channel
  mixer : Mixer
  arbiter : Arbiter
  line : LineControl
  counters : Counters
  /-- the model's own: steps that have come about and are not yet taken (log 1) -/
  owed : List Owed
  /-- the model's own: the edges of ABCLK in each of the coming bit times, first in, first out; the outside puts them
  there, and where the list is empty ABCLK stands still (log 35) -/
  audioIn : List (List AudioEdge)
  /-- the model's own: the levels of LINE_RX in the coming bit times, mark being true, first in, first out; the outside
  puts them there (log 28) -/
  lineIn : List Bool
  /-- the model's own: the commands that are waiting, first in, first out -/
  pending : List Instr
deriving DecidableEq, Repr

/-- Why the machine would stop with a fault. The HX24 has no fault stop: errors raise counters and pins (R15, R182), so
no command raises one. -/
inductive Fault where
deriving DecidableEq, Repr

/-- Why a command would be refused. -/
inductive Refusal where
  /-- Raised by exec alone, for a command that has no meaning in the model yet; safe. No arm raises it now. -/
  | notModelled (mnemonic : String)
deriving DecidableEq, Repr

/-- The part right after the rising edge of RESET_N: straps latched, every block at its reset value (R5, R6, R17, R40,
R44, R58, R92, R97, R110, R127, R128, R149, R160, R182). The audio edges, the line levels and the commands that wait are
kept. -/
def State.released (pins : StrapPins) (lineAtMark : Bool) (audioIn : List (List AudioEdge)) (lineIn : List Bool)
    (pending : List Instr) : State :=
  { resetN := true
    straps := pins
    npt := periodTable pins.tune pins.fs
    audio := resetAudio
    ring := []
    clock := 0
    tracker := .absent
    result := resetResult
    marks := []
    coverEnd := none
    coverFar := false
    follower := .rest
    scenes := resetScenes
    claimQueue := []
    map := []
    alloc := resetAlloc
    channels := Quad.const resetChannel
    mixer := silentMixer
    arbiter := resetArbiter
    line := resetLine pins.id lineAtMark
    counters := zeroCounters
    owed := []
    audioIn := audioIn
    lineIn := lineIn
    pending := pending }

/-- The machine right after reset, with every strap pin low and the line at mark. DESIGN CHOICE (logs 5, 24): the spec
gives the strap and line levels no value of their own; RESET_RELEASE takes any. -/
def State.reset : State :=
  State.released { id := 0, group := 0, tune := 0, fs := 0, rate := 0, nv := 0 } true [] [] []

end Sys2Proof.Machine
end

