-- ==== Sys2Proof/Machine/Ops.lean ====
section
/-! DEFINITION. Machine/Ops.lean: the named operations over the addressed stores, positions, counters, voices and
straps, which every meaning uses. -/

namespace Sys2Proof.Machine

/-! ### Addressed stores -/

/-- What the store holds at an address; `zero` where none is listed. -/
def Cells.read {α : Type} (zero : α) : Cells α → Nat → α
  | [], _ => zero
  | (a, x) :: rest, k => if a = k then x else Cells.read zero rest k

/-- Writes a value, keeping the canonical form: writing `zero` removes the entry. -/
def Cells.write {α : Type} [DecidableEq α] (zero : α) : Cells α → Nat → α → Cells α
  | [], k, x => if x = zero then [] else [(k, x)]
  | (a, y) :: rest, k, x =>
    if k < a then (if x = zero then (a, y) :: rest else (k, x) :: (a, y) :: rest)
    else if k = a then (if x = zero then rest else (k, x) :: rest)
    else (a, y) :: Cells.write zero rest k x

/-- The canonical form: addresses strictly rising, no listed value zero. -/
def Cells.wf {α : Type} [DecidableEq α] (zero : α) (c : Cells α) : Bool :=
  decide (c.Pairwise fun x y => x.1 < y.1) && c.all fun x => decide (x.2 ≠ zero)

/-- A read of position p returns whatever ring entry p mod 4096 holds (R8). -/
def readRing (ring : Cells Sample) (p : Pos) : Sample := Cells.read 0 ring (p.toNat % Config.ringSize)

/-- A sample arrival writes entry p mod 4096 (R8). -/
def writeRing (ring : Cells Sample) (p : Pos) (x : Sample) : Cells Sample :=
  Cells.write 0 ring (p.toNat % Config.ringSize) x

/-- The overlap buffer's sum for an output position (R127, R128). -/
def readOverlap (o : Cells Int) (p : Pos) : Int := Cells.read 0 o (p.toNat % Config.overlapSize)

/-- Replaces the overlap buffer's sum for an output position. -/
def writeOverlap (o : Cells Int) (p : Pos) (x : Int) : Cells Int :=
  Cells.write 0 o (p.toNat % Config.overlapSize) x

/-! ### Positions -/

/-- How far p lies behind q, negative where it lies ahead; the difference is taken modulo 2^24 (R9, R128). -/
def behind (q p : Pos) : Int := (q - p).toInt

/-- How far p lies behind q in sixteenths, modulo 2^28 (R35, R128). -/
def behind16 (q p : Pos16) : Int := (q - p).toInt

/-- An output position is due when the newest due position, which is the stage clock, has reached it (R128). -/
def isDue (clock p : Pos) : Bool := decide (0 ≤ behind clock p)

/-- The newest sample's position in sixteenths: it lies one behind the stage clock (R10). -/
def newestSample (clock : Pos) : Pos16 := (clock - 1).sixteenths

/-! ### Counters -/

/-- A saturating count: it stops at its limit (00_scope.md, Saturating counters). -/
def satSucc (limit n : Nat) : Nat := if n < limit then n + 1 else n

/-- One counter's value. -/
def Counters.get (c : Counters) : Counter → Nat
  | .late => c.late
  | .repeats => c.repeats
  | .drop => c.drop
  | .park => c.park
  | .collide => c.collide
  | .giveUp => c.giveUp
  | .badFrame => c.badFrame
  | .inboxDrop => c.inboxDrop
  | .expire => c.expire
  | .clash => c.clash
  | .hush => c.hush
  | .clamp => c.clamp

/-- Each increment adds one and stops at 65535 (R182). -/
def Counters.bump (c : Counters) : Counter → Counters
  | .late => { c with late := satSucc Config.counterLimit c.late }
  | .repeats => { c with repeats := satSucc Config.counterLimit c.repeats }
  | .drop => { c with drop := satSucc Config.counterLimit c.drop }
  | .park => { c with park := satSucc Config.counterLimit c.park }
  | .collide => { c with collide := satSucc Config.counterLimit c.collide }
  | .giveUp => { c with giveUp := satSucc Config.counterLimit c.giveUp }
  | .badFrame => { c with badFrame := satSucc Config.counterLimit c.badFrame }
  | .inboxDrop => { c with inboxDrop := satSucc Config.counterLimit c.inboxDrop }
  | .expire => { c with expire := satSucc Config.counterLimit c.expire }
  | .clash => { c with clash := satSucc Config.counterLimit c.clash }
  | .hush => { c with hush := satSucc Config.counterLimit c.hush }
  | .clamp => { c with clamp := satSucc Config.counterLimit c.clamp }

/-- The counters in the order a REPORT carries them (R181, 11.2 layout). -/
def Counters.reportOrder (c : Counters) : List Nat :=
  [c.late, c.repeats, c.drop, c.park, c.collide, c.giveUp, c.badFrame, c.inboxDrop, c.expire, c.clash, c.hush, c.clamp]

/-- Increments one counter. -/
def State.bump (c : Counter) (s : State) : State := { s with counters := s.counters.bump c }

/-- Increments one counter n times. -/
def State.bumpTimes (c : Counter) : Nat → State → State
  | 0, s => s
  | n + 1, s => State.bumpTimes c n (s.bump c)

/-! ### Straps and voices -/

/-- Enabled voices: the NV code plus one (R5). -/
def State.voiceCount (s : State) : Nat := s.straps.nv.toNat + 1

/-- Voices 0 up to voice count - 1 are enabled (R7). -/
def State.enabled (s : State) (v : Voice) : Bool := decide (v.index < s.voiceCount)

/-- The voice's rule in the active scene. -/
def State.rule (s : State) (v : Voice) : VoiceRule := s.scenes.active.rules.get v

/-- Whether the voice's rule in the active scene is OFF. -/
def State.ruleOff (s : State) (v : Voice) : Bool := decide ((s.rule v).mode = .off)

/-- The voice's channel. -/
def State.channel (s : State) (v : Voice) : Channel := s.channels.get v

/-- Replaces the voice's channel. -/
def State.setChannel (v : Voice) (c : Channel) (s : State) : State := { s with channels := s.channels.set v c }

/-- What the allocator holds for the voice. -/
def State.voice (s : State) (v : Voice) : VoiceAlloc := s.alloc.voices.get v

/-- Replaces what the allocator holds for the voice. -/
def State.setVoice (v : Voice) (a : VoiceAlloc) (s : State) : State :=
  { s with alloc := { s.alloc with voices := s.alloc.voices.set v a } }

/-- Applies an operation to each voice in index order. -/
def State.forVoices (f : Voice → State → State) (s : State) : State := f .v3 (f .v2 (f .v1 (f .v0 s)))

/-! ### The outcome of a command -/

/-- A command's effect: while RESET_N is low every block is held at its reset value and nothing else happens (R6). -/
def whenReleased (f : State → State) (s : State) : Host.Outcome State Fault Refusal :=
  .next (if s.resetN then f s else s)

end Sys2Proof.Machine
end

