-- ==== Sys2Proof/Machine/ArbiterOps.lean ====
section
/-! DEFINITION. Machine/ArbiterOps.lean: how a job joins the list, is granted and is withdrawn (chapter 09). -/

namespace Sys2Proof.Machine

/-- The grant order: PLACE by voice, then FETCH by owner voice, then ANALYSIS (R151). -/
def Job.rank : Job → Nat
  | .place v _ _ => v.index
  | .fetch o _ _ => 4 + o.index
  | .analysis _ _ => 8

/-- The waiting job the arbiter takes (R151). -/
def nextJob (list : List Job) : Option Job :=
  (List.range 9).findSome? fun r => list.find? fun j => j.rank == r

/-- The unit grants a job whenever it is FREE and the list is not empty (R151). -/
def Arbiter.grant (a : Arbiter) : Arbiter :=
  match a.running with
  | some _ => a
  | none =>
    match nextJob a.list with
    | none => a
    | some j => { running := some { job := j, fate := .live }, list := a.list.erase j }

/-- The grant, on the whole state. -/
def State.grant (s : State) : State := { s with arbiter := s.arbiter.grant }

/-- A job joins the list; a request that finds the unit FREE is granted at once (R150, R151). -/
def State.request (j : Job) (s : State) : State :=
  { s with arbiter := ({ s.arbiter with list := s.arbiter.list ++ [j] } : Arbiter).grant }

/-- The lower voice of the pair (R136). -/
def lowerVoice (v : Voice) : Voice := if v.index < v.partner.index then v else v.partner

/-- The higher voice of the pair. -/
def higherVoice (v : Voice) : Voice := if v.index < v.partner.index then v.partner else v

/-- Whether this waiting record is the partner's own FETCH for the same source mark position (R136). -/
def Job.mergesWith (v : Voice) (m : Mark) : Job → Bool
  | .fetch o none m' => decide (o = v.partner) && decide (m'.pos = m.pos)
  | _ => false

/-- The merged record: the lower voice owns it, the higher is its partner (R136, R150). -/
def Job.merged (v : Voice) : Job → Job
  | .fetch _ _ m' => .fetch (lowerVoice v) (some (higherVoice v)) m'
  | j => j

/-- A FETCH request of voice v: merged into the partner's waiting FETCH of the same mark, otherwise a record of its own
(R136, R150). -/
def State.requestFetch (v : Voice) (m : Mark) (s : State) : State :=
  if s.arbiter.list.any (Job.mergesWith v m) then
    { s with arbiter := { s.arbiter with
        list := s.arbiter.list.map fun j => if j.mergesWith v m then j.merged v else j } }
  else s.request (.fetch v none m)

/-- A FETCH without voice v: a merged one stays for the other voice, which then owns it; none where nobody needs it any
more (R136, R150). -/
def Job.withoutVoice (v : Voice) : Job → Option Job
  | .fetch o p m =>
    if o = v then p.map fun q => .fetch q none m
    else if p = some v then some (.fetch o none m)
    else some (.fetch o p m)
  | j => some j

/-- Voice v gives up its FETCH, waiting or running (R144, R153). -/
def Arbiter.withdrawFetch (v : Voice) (a : Arbiter) : Arbiter :=
  { list := a.list.filterMap (Job.withoutVoice v)
    running := a.running.map fun r =>
      match r.job.withoutVoice v with
      | some j => { r with job := j }
      | none => { r with fate := .discarded } }

/-- Whether this is a PLACE of voice v. -/
def Job.isPlaceOf (v : Voice) : Job → Bool
  | .place o _ _ => decide (o = v)
  | _ => false

/-- Whether this is a FETCH that serves voice v. -/
def Job.isFetchFor (v : Voice) : Job → Bool
  | .fetch o p _ => decide (o = v) || decide (p = some v)
  | _ => false

/-- Whether this is an ANALYSIS segment. -/
def Job.isAnalysis : Job → Bool
  | .analysis _ _ => true
  | _ => false

/-- Voice v gives up its PLACE: a waiting one is removed, a running one is discarded at its completion (R153). -/
def Arbiter.withdrawPlace (v : Voice) (a : Arbiter) : Arbiter :=
  { list := a.list.filter fun j => !j.isPlaceOf v
    running := a.running.map fun r => if r.job.isPlaceOf v then { r with fate := .discarded } else r }

/-- The tracker gives up its segment: a waiting one is removed, a running one is discarded at its completion (R153). -/
def Arbiter.withdrawAnalysis (a : Arbiter) : Arbiter :=
  { list := a.list.filter fun j => !j.isAnalysis
    running := a.running.map fun r => if r.job.isAnalysis then { r with fate := .discarded } else r }

/-- A hush: every waiting job is removed; a running FETCH is discarded, a running PLACE adds its grain and schedules
nothing (R145, R157); one that was dropped already adds nothing and schedules nothing (R142; DEDUCED, log 12). -/
def Arbiter.hush (a : Arbiter) : Arbiter :=
  { list := []
    running := a.running.map fun r =>
      match r.job, r.fate with
      | .place _ _ _, .live => { r with fate := .addsOnly }
      | .place _ _ _, .dropped => { r with fate := .discarded }
      | .fetch _ _ _, _ => { r with fate := .discarded }
      | _, _ => r }

end Sys2Proof.Machine
end

