-- ==== Sys2Proof/Machine/Pitch.lean ====
section
/-! DEFINITION. Machine/Pitch.lean: the pitch tracker's analysis, its segments, and the mark list (chapter 02). -/

namespace Sys2Proof.Machine

/-! ### The analysis window and its differences -/

/-- The analysis window of tick T: the 2048 samples at positions T - 2048 to T - 1, oldest first (R19). -/
def analysisWindow (ring : Cells Sample) (tick : Pos) : List Int :=
  (List.range Config.windowSize).map fun i =>
    (readRing ring (tick - BitVec.ofNat 24 Config.windowSize + BitVec.ofNat 24 i)).toInt

/-- The window level (R22). -/
def windowLevel (w : List Int) : Nat := (w.map Int.natAbs).sum / Config.windowSize

/-- D(lag): the sum of |x[i] - x[i + lag]| over i = 0..1023 (R23). -/
def difference (w : List Int) (lag : Nat) : Nat :=
  (List.zipWith (fun a b => (a - b).natAbs) (w.take Config.differenceTerms)
    ((w.drop lag).take Config.differenceTerms)).sum

/-- Whether D is defined at the lag (R23). -/
def lagInRange (lag : Int) : Bool := decide ((Config.minLag : Int) ≤ lag ∧ lag ≤ Config.maxLag)

/-- The better of two lags with their D: the smaller D, the smaller lag winning a tie (R23). -/
def betterLag (a b : Nat × Nat) : Nat × Nat :=
  if b.2 < a.2 ∨ (b.2 = a.2 ∧ b.1 < a.1) then b else a

/-- The lags of the coarse search: 24, 40, …, 888 (R24). -/
def coarseLags : List Nat := (List.range 55).map fun i => 24 + 16 * i

/-- Segment 2, the coarse search (R24). -/
def coarseSearch (w : List Int) : Search :=
  let ds := coarseLags.map fun lag => (lag, difference w lag)
  let best := ds.foldl betterLag (24, difference w 24)
  { bestLag := best.1, bestD := best.2, dmean := (ds.map Prod.snd).sum / 55 }

/-- A refinement with step s: the best of the current lag and those at best - s and best + s that lie in 24..896
(R25). -/
def refine (w : List Int) (s : Nat) (best : Nat × Nat) : Nat × Nat :=
  let tries := [(best.1 : Int) - s, (best.1 : Int) + s].filter lagInRange
  tries.foldl (fun b lag => betterLag b (lag.toNat, difference w lag.toNat)) best

/-- The refinement's step in segments 3, 4, 5 and 6 (R25). -/
def refineStep (segment : Nat) : Nat :=
  if segment = 3 then 8 else if segment = 4 then 4 else if segment = 5 then 2 else 1

/-- Segment 7, the octave guard (R26). -/
def octaveGuard (w : List Int) (best : Nat × Nat) : Nat × Nat :=
  let h := (best.1 + 1) / 2
  if Config.minLag ≤ h ∧ 8 * difference w h ≤ 9 * best.2 then
    refine w 1 (refine w 2 (h, difference w h))
  else best

/-- The refined period in sixteenths: round-half-up(16 × (L + δ)), with δ = (D- - D+) / den clamped to ±1/2 and 0 at
L = 24, at L = 896 and where den ≤ 0 (R27). The quotient is rounded once: 16 × (L + num/den) is
(16 × L × den + 16 × num) / den. -/
def refinedPeriod (w : List Int) (lag : Nat) : Nat :=
  if lag = Config.minLag ∨ lag = Config.maxLag then 16 * lag
  else
    let dMinus : Int := difference w (lag - 1)
    let dZero : Int := difference w lag
    let dPlus : Int := difference w (lag + 1)
    let den : Int := 2 * (dMinus - 2 * dZero + dPlus)
    let num : Int := dMinus - dPlus
    if den ≤ 0 then 16 * lag
    else if den < 2 * num then 16 * lag + 8
    else if 2 * num < -den then 16 * lag - 8
    else (roundHalfUp (16 * lag * den + 16 * num) den.toNat).toNat

/-- The confidence (R28 step 1). -/
def confidence (d dmean : Nat) : Nat :=
  if dmean = 0 then 0 else (clampInt 0 255 (255 - ((255 * d / dmean : Nat) : Int))).toNat

/-- The reason of segment 8: the confidence test, then the conversion of P (R28). -/
def gradeMatch (npt : List Nat) (threshold conf period : Nat) : Reason :=
  if conf < threshold then .unsure
  else
    match periodToPitch npt period with
    | none => .outOfRange
    | some (note, cents) => .voiced period note cents

/-- What a segment's completion does to its analysis: goes on with the next segment, or ends with a result (R21). -/
inductive SegmentEnd where
  | goesOn (a : Analysis)
  | ends (r : ResultRecord)
deriving DecidableEq, Repr

/-- Segment 1, the level and its gate (R22). -/
def levelSegment (w : List Int) (a : Analysis) : SegmentEnd :=
  let level := windowLevel w
  if level < a.gate * 4096 then .ends { frame := a.tick, reason := .quiet, conf := 0, level := level }
  else .goesOn { a with segment := 2, level := some level }

/-- Segment 8: fraction, confidence and reason (R27, R28). -/
def finalSegment (npt : List Nat) (w : List Int) (a : Analysis) (k : Search) : SegmentEnd :=
  let conf := confidence k.bestD k.dmean
  .ends { frame := a.tick, reason := gradeMatch npt a.threshold conf (refinedPeriod w k.bestLag), conf := conf,
          level := a.level.getD 0 }

/-- The analysis with a new best lag and its D, at the next segment. -/
def Analysis.withBest (a : Analysis) (k : Search) (best : Nat × Nat) : Analysis :=
  { a with segment := a.segment + 1, search := some { k with bestLag := best.1, bestD := best.2 } }

/-- A segment run on the window (R21 to R28). -/
def runSegment (npt : List Nat) (w : List Int) (a : Analysis) : SegmentEnd :=
  if a.segment ≤ 1 then levelSegment w a
  else
    match a.search with
    | none => .goesOn { a with segment := 3, search := some (coarseSearch w) }
    | some k =>
      if a.segment ≤ 6 then .goesOn (a.withBest k (refine w (refineStep a.segment) (k.bestLag, k.bestD)))
      else if a.segment = 7 then .goesOn (a.withBest k (octaveGuard w (k.bestLag, k.bestD)))
      else finalSegment npt w a k

/-! ### The mark list -/

/-- Whether a position is too old for the mark list: more than 36,864 sixteenths behind the newest sample (R39). -/
def tooOld (clock : Pos) (p : Pos16) : Bool := decide ((Config.markReach : Int) < behind16 (newestSample clock) p)

/-- Marks too old are removed from the head of the list (R39). -/
def removeOldMarks (clock : Pos) (marks : List Mark) : List Mark := marks.dropWhile fun m => tooOld clock m.pos

/-- The span start S of a completion's frame span: the cover end, or 256 samples before the tick, moved up to the limit
where it lies too far behind the newest sample (R36). `far` says that the cover end has lain too far behind before, so
that its distance may have gone round the modulus since (log 32). -/
def spanStart (clock tick : Pos) (coverEnd : Option Pos16) (far : Bool) : Pos16 :=
  let s := coverEnd.getD (tick - BitVec.ofNat 24 Config.tickSpacing).sixteenths
  if far || tooOld clock s then newestSample clock - BitVec.ofNat 28 Config.markReach else s

/-- The first new mark's position: the last mark's position plus the period where the run goes on, else S (R37, R38). -/
def firstMark (marks : List Mark) (voiced : Bool) (period : Nat) (start : Pos16) : Pos16 :=
  match marks.getLast? with
  | some m => if m.voiced = voiced then m.pos + BitVec.ofNat 28 period else start
  | none => start

/-- The marks of a span: every period from the first, before the span's end, without those computed too far behind the
newest sample (R37, R38). -/
def spanMarks (clock tick : Pos) (first : Pos16) (period : Nat) (voiced : Bool) : List Mark :=
  let count := ((behind16 tick.sixteenths first + period - 1) / period).toNat
  ((List.range count).map fun i =>
    ({ pos := first + BitVec.ofNat 28 (i * period), period := period, voiced := voiced } : Mark)).filter
      fun m => !tooOld clock m.pos

/-- The period and the voiced flag of the marks a reason appends (R37, R38). -/
def Reason.markKind : Reason → Nat × Bool
  | .voiced p _ _ => (p, true)
  | .quiet => (Config.unvoicedPeriod, false)
  | .unsure => (Config.unvoicedPeriod, false)
  | .outOfRange => (Config.unvoicedPeriod, false)

/-- The mark list after a completion's removal and appends (R36 to R39). -/
def appendMarks (clock tick : Pos) (coverEnd : Option Pos16) (far : Bool) (marks : List Mark) (reason : Reason) :
    List Mark :=
  let kept := removeOldMarks clock marks
  let kind := reason.markKind
  let first := firstMark kept kind.2 kind.1 (spanStart clock tick coverEnd far)
  kept ++ spanMarks clock tick first kind.1 kind.2

/-! ### Tracker events -/

/-- The analysis in flight, if any, is abandoned: its segment is withdrawn, waiting or running, and the tracker returns
to WAITING (02 section 2.4, R153). -/
def State.abandonAnalysis (s : State) : State :=
  match s.tracker with
  | .analysing _ => { s with tracker := .waiting, arbiter := s.arbiter.withdrawAnalysis }
  | _ => s

/-- The mark list is emptied and the cover end made undefined (R32, R33). -/
def State.emptyMarks (s : State) : State := { s with marks := [], coverEnd := none, coverFar := false }

/-- The context of an analysis that a tick starts (R19, R21). -/
def newAnalysis (tick : Pos) (scene : Scene) : Analysis :=
  { tick := tick, gate := scene.gate, threshold := scene.threshold, segment := 1, level := none, search := none }

/-- What an analysis tick does in each tracker state (R18, R19, R20). -/
def State.takeTick (s : State) : State :=
  match s.tracker with
  | .absent => s
  | .warming => s
  | .waiting =>
    ({ s with tracker := .analysing (newAnalysis s.clock s.scenes.active) } : State).request (.analysis s.clock 1)
  | .analysing _ => s.bump .late

/-- WARMING ends once the fresh count has reached 2048 (R18). -/
def State.leaveWarming (s : State) : State :=
  match s.tracker with
  | .warming => if Config.windowSize ≤ s.audio.fresh then { s with tracker := .waiting } else s
  | _ => s

/-- Whether the newest arrival has written the ring entry of the window's oldest sample: it lies at position
T + 2048 (R34). -/
def windowOverwritten (clock : Pos) (a : Analysis) : Bool := decide ((Config.windowSize : Int) < behind clock a.tick)

/-- An analysis whose window's oldest sample is overwritten is abandoned and counted LATE (R34). -/
def State.overwriteWindow (s : State) : State :=
  match s.tracker with
  | .analysing a => if windowOverwritten s.clock a then s.abandonAnalysis.bump .late else s
  | _ => s

/-- The tracker's part of an analysis completion: the record, the marks, the cover end, and back to WAITING (R30 steps
1 to 3, R36). -/
def State.writeResult (r : ResultRecord) (s : State) : State :=
  { s with
    result := r
    marks := appendMarks s.clock r.frame s.coverEnd s.coverFar s.marks r.reason
    coverEnd := some r.frame.sixteenths
    coverFar := false
    tracker := .waiting }

end Sys2Proof.Machine
end

