-- ==== Sys2Proof/Machine/FollowerOps.lean ====
section
/-! DEFINITION. Machine/FollowerOps.lean: the note follower's step (chapter 03, section 3.3). -/

namespace Sys2Proof.Machine

/-- A voiced result with note x and period p (R46, R48). -/
def followVoiced (x p : Nat) : Follower → Follower
  | .rest => .arming x p
  | .arming c _ => if x = c then .held c p else .arming x p
  | .held h _ => if x = h then .held h p else .changing h x p
  | .changing h d _ => if x = d then .held d p else if x = h then .held h p else .changing h x p
  | .lapsing h _ _ => if x = h then .held h p else .changing h x p

/-- An unvoiced result (R47, R48). -/
def followUnvoiced : Follower → Follower
  | .rest => .rest
  | .arming _ _ => .rest
  | .held h p => .lapsing h 1 p
  | .changing h _ p => .lapsing h 1 p
  | .lapsing h k p => if k = 1 then .lapsing h 2 p else .rest

/-- The follower's step on a result (R45). -/
def followerStep (r : Reason) (f : Follower) : Follower :=
  match r with
  | .voiced p note _ => followVoiced note p f
  | .quiet => followUnvoiced f
  | .unsure => followUnvoiced f
  | .outOfRange => followUnvoiced f

/-- The held note, present in HELD, CHANGING and LAPSING (03 section 3.3). -/
def Follower.heldNote : Follower → Option Nat
  | .rest => none
  | .arming _ _ => none
  | .held h _ => some h
  | .changing h _ _ => some h
  | .lapsing h _ _ => some h

/-- The held note with the live P that the follower hands over beside it (R49). -/
def Follower.heldWithLive : Follower → Option (Nat × Nat)
  | .rest => none
  | .arming _ _ => none
  | .held h p => some (h, p)
  | .changing h _ p => some (h, p)
  | .lapsing h _ p => some (h, p)

/-- The live P, absent in REST alone (R48). -/
def Follower.liveP : Follower → Option Nat
  | .rest => none
  | .arming _ p => some p
  | .held _ p => some p
  | .changing _ _ p => some p
  | .lapsing _ _ p => some p

/-- The REPORT's code of the follower state (R52, 11.2 layout). -/
def Follower.code : Follower → Nat
  | .rest => 0
  | .arming _ _ => 1
  | .held _ _ => 2
  | .changing _ _ _ => 3
  | .lapsing _ _ _ => 4

end Sys2Proof.Machine
end

