-- ==== Sys2Proof/Machine/Operands.lean ====
section
/-! DEFINITION. Machine/Operands.lean: the operands that frames carry: the outer form and check of a frame (11.1), the
payload layouts and well-formed tests (11.2, 11.3), and the clamping of a scene (R61). -/

namespace Sys2Proof.Machine

/-! ### Outer form and check -/

/-- The kind in a header's bits 7..4 (R176). -/
def headerKind (h : Byte) : Nat := h.toNat / 16

/-- The sender id in a header's bits 3..0 (R176). -/
def headerSender (h : Byte) : StationId := h.setWidth 4

/-- The header of a frame the station sends (R176). -/
def header (kind : Nat) (id : StationId) : Byte := BitVec.ofNat 8 (16 * kind + id.toNat)

/-- The kind codes (R176). -/
def kindClaim : Nat := 1
/-- SCENE (R176). -/
def kindScene : Nat := 2
/-- CONTROL (R176). -/
def kindControl : Nat := 3
/-- QUERY (R176). -/
def kindQuery : Nat := 4
/-- REPORT (R176). -/
def kindReport : Nat := 5

/-- One shift of the check register (R177). -/
def crcShift (c : BitVec 16) : BitVec 16 := if c.msb then (c <<< 1) ^^^ 0x1021#16 else c <<< 1

/-- One character added into the check register and shifted through (R177). -/
def crcChar (c : BitVec 16) (b : Byte) : BitVec 16 :=
  crcShift (crcShift (crcShift (crcShift (crcShift (crcShift (crcShift (crcShift (c ^^^ (b.setWidth 16 <<< 8)))))))))

/-- The check of a run of characters (R177). -/
def crc (chars : List Byte) : BitVec 16 := chars.foldl crcChar 0xFFFF#16

/-- A 16-bit quantity as two characters, high byte first (R176). -/
def twoChars (x : BitVec 16) : List Byte := [(x >>> 8).setWidth 8, x.setWidth 8]

/-- A whole frame built around a payload (R176, R177). -/
def buildFrame (kind : Nat) (id : StationId) (payload : List Byte) : List Byte :=
  let body := header kind id :: BitVec.ofNat 8 payload.length :: payload
  body ++ twoChars (crc body)

/-- Whether the characters of an ended frame make it whole: the count is the length byte + 4 and the check agrees
(R166). -/
def isWhole (chars : List Byte) : Bool :=
  match chars with
  | _ :: len :: _ =>
    decide (chars.length = len.toNat + 4) &&
      decide (chars.drop (chars.length - 2) = twoChars (crc (chars.take (chars.length - 2))))
  | _ => false

/-- The payload of a whole frame. -/
def payloadOf (chars : List Byte) : List Byte := (chars.drop 2).take (chars.length - 4)

/-! ### CLAIM -/

/-- A voice byte: index in bits 1..0, doubled in bit 7, the others not examined (R92, R178 layout). -/
def claimItem (voice note age : Byte) : ClaimItem :=
  { voice := Voice.ofBits (voice.setWidth 2), doubled := voice.getLsbD 7, note := note, age := age }

/-- The items of a CLAIM's payload after its first two characters. -/
def claimItems : List Byte → List ClaimItem
  | v :: n :: a :: rest => claimItem v n a :: claimItems rest
  | _ => []

/-- A CLAIM's well-formed test: N lies in 0..4 and the length is 2 + 3 × N; none where it is malformed (R93, R178). -/
def parseClaim (sender : StationId) (payload : List Byte) : Option ClaimMsg :=
  match payload with
  | live :: n :: rest =>
    if n.toNat ≤ 4 ∧ rest.length = 3 * n.toNat then
      some { sender := sender, live := live, items := claimItems rest }
    else none
  | _ => none

/-- A voice index as two bits. -/
def voiceBits (v : Voice) (doubled : Bool) : Byte := BitVec.ofNat 8 (v.index + if doubled then 128 else 0)

/-- The payload of a CLAIM built from a record (R178). -/
def claimPayload (r : ClaimRecord) : List Byte :=
  BitVec.ofNat 8 (r.live.getD 0) :: BitVec.ofNat 8 r.entries.length ::
    r.entries.flatMap fun e => [voiceBits e.voice e.doubled, BitVec.ofNat 8 e.note, BitVec.ofNat 8 e.age]

/-! ### SCENE -/

/-- One rule taken from the payload, with the rest: its six characters, then k alternates with k in 0..3; none where
they run past the end or k is above 3 (R179). -/
def parseRule (payload : List Byte) : Option (RawRule × List Byte) :=
  match payload with
  | mode :: primary :: level :: pan :: flags :: k :: rest =>
    if 3 < k.toNat then none
    else if rest.length < k.toNat then none
    else
      some ({ mode := mode, primary := primary, level := level, pan := pan, flags := flags,
              alternates := rest.take k.toNat }, rest.drop k.toNat)
  | _ => none

/-- The walk over the four rules; none where one fails or characters remain (R179). -/
def parseRules (payload : List Byte) : Option (Quad RawRule) :=
  match parseRule payload with
  | none => none
  | some (r0, p1) =>
    match parseRule p1 with
    | none => none
    | some (r1, p2) =>
      match parseRule p2 with
      | none => none
      | some (r2, p3) =>
        match parseRule p3 with
        | some (r3, []) => some { q0 := r0, q1 := r1, q2 := r2, q3 := r3 }
        | _ => none

/-- A SCENE's well-formed test and contents (R60, R179). The group mask has been tested by the receiver. -/
def parseScene (payload : List Byte) : Option SceneMsg :=
  match payload with
  | _mask :: number :: root :: scale :: threshold :: gate :: options :: glide :: sw :: d2 :: d1 :: d0 :: rest =>
    (parseRules rest).map fun rules =>
      { number := number, root := root, scale := scale, threshold := threshold, gate := gate, options := options,
        glide := glide, switchMode := sw, delay := d2 ++ d1 ++ d0, rules := rules }
  | _ => none

/-- The mode kept for a rule (R61). -/
def keptMode (mode : Byte) : RuleMode :=
  if mode = 1#8 then .diatonic else if mode = 2#8 then .semitone else .off

/-- The interval range of a mode (R56, R61). -/
def intervalLimit : RuleMode → Int
  | .diatonic => 14
  | .semitone => 24
  | .off => 24

/-- An interval brought to the nearer end of its range (R61). -/
def keptInterval (m : RuleMode) (b : Byte) : Int := clampInt (-(intervalLimit m)) (intervalLimit m) b.toInt

/-- A rule as kept (R61). -/
def keptRule (r : RawRule) : VoiceRule :=
  { mode := keptMode r.mode
    primary := keptInterval (keptMode r.mode) r.primary
    alternates := r.alternates.map (keptInterval (keptMode r.mode))
    level := min r.level.toNat 127
    pan := clampInt (-64) 63 r.pan.toInt
    intonation := if r.flags.getLsbD 0 then .follow else .correct
    doubling := r.flags.getLsbD 1 }

/-- The scene as kept (R61). -/
def keptScene (m : SceneMsg) : Scene :=
  { number := min m.number.toNat 127
    root := m.root.toNat % 12
    scale := if m.scale.toNat ≤ 5 then m.scale.toNat else 0
    threshold := m.threshold.toNat
    gate := m.gate.toNat
    rubs := m.options.getLsbD 0
    glide := min m.glide.toNat 15
    rules := { q0 := keptRule m.rules.q0, q1 := keptRule m.rules.q1, q2 := keptRule m.rules.q2,
               q3 := keptRule m.rules.q3 } }

/-- How a scene is switched in (R61, 11.2 layout). -/
inductive SwitchMode where
  | atOnce | atRest | atDelay
deriving DecidableEq, Repr

/-- The switch mode kept (R61). -/
def keptSwitch (b : Byte) : SwitchMode := if b = 1#8 then .atRest else if b = 2#8 then .atDelay else .atOnce

/-- Whether clamping changes a field of the rule (R61). -/
def ruleClamped (r : RawRule) : Bool :=
  decide (2 < r.mode.toNat) || decide (127 < r.level.toNat) || decide (clampInt (-64) 63 r.pan.toInt ≠ r.pan.toInt) ||
    (r.primary :: r.alternates).any fun b => decide (keptInterval (keptMode r.mode) b ≠ b.toInt)

/-- Whether clamping changes one or more fields (R62). -/
def sceneClamped (m : SceneMsg) : Bool :=
  decide (127 < m.number.toNat) || decide (11 < m.root.toNat) || decide (5 < m.scale.toNat) ||
    decide (15 < m.glide.toNat) || decide (2 < m.switchMode.toNat) || m.rules.toList.any ruleClamped

/-! ### CONTROL and QUERY -/

/-- What a judged frame of a known kind comes to (R166, R178 to R180). -/
inductive Routing where
  | accepted (frame : Accepted)
  | malformed
  | nothing
deriving DecidableEq, Repr

/-- A whole CONTROL: length 2, action 1 or 2; any other action is ignored (R68, R180). -/
def routeControl (payload : List Byte) : Routing :=
  match payload with
  | [_, action] =>
    if action = 1#8 then .accepted .bypassOn else if action = 2#8 then .accepted .bypassOff else .nothing
  | _ => .malformed

/-- A whole QUERY addressed to this station: length 2 (R180). -/
def routeQuery (payload : List Byte) : Routing :=
  match payload with
  | [_, options] => .accepted (.query (options.getLsbD 0))
  | _ => .malformed

/-- A whole CLAIM; one bearing the own id is not queued (R93, R178). -/
def routeClaim (own sender : StationId) (payload : List Byte) : Routing :=
  match parseClaim sender payload with
  | some m => if sender = own then .nothing else .accepted (.claim m)
  | none => .malformed

/-- A whole SCENE with its arrival capture (R60, R179). -/
def routeScene (capture : Pos) (payload : List Byte) : Routing :=
  match parseScene payload with
  | some m => .accepted (.scene capture m)
  | none => .malformed

/-- A whole frame routed by the kind in its header (R166). -/
def routeFrame (own : StationId) (capture : Pos) (h : Byte) (payload : List Byte) : Routing :=
  if headerKind h = kindClaim then routeClaim own (headerSender h) payload
  else if headerKind h = kindScene then routeScene capture payload
  else if headerKind h = kindControl then routeControl payload
  else if headerKind h = kindQuery then routeQuery payload
  else .nothing

/-! ### REPORT -/

/-- A voice state's code (11.2 layout). -/
def VoiceState.code : VoiceState → Nat
  | .off => 0
  | .parked => 1
  | .entering => 2
  | .sounding => 3
  | .gliding => 4
  | .leaving => 5

/-- A reason's code (11.2 layout). -/
def Reason.code : Reason → Nat
  | .quiet => 0
  | .unsure => 1
  | .outOfRange => 2
  | .voiced _ _ _ => 3

/-- A flag as a bit of the given weight. -/
def flagBit (b : Bool) (weight : Nat) : Nat := if b then weight else 0

/-- The pending switch mode: 0 none, 1 AT_REST, 2 AT_DELAY (R72). -/
def pendingCode : Option PendingScene → Nat
  | none => 0
  | some p => match p.condition with
    | .atRest => 1
    | .atDelay _ => 2

/-- The first eight characters of a REPORT (R181). -/
def reportHead (s : State) : List Nat :=
  [ s.straps.id.toNat + 16 * s.straps.group.toNat,
    s.straps.tune.toNat + 4 * s.straps.fs.toNat + 8 * s.straps.rate.toNat + 16 * s.straps.nv.toNat,
    s.follower.code,
    s.follower.heldNote.getD 0,
    s.result.reason.code,
    flagBit s.scenes.bypass 1 + flagBit s.line.clash 2 + flagBit (decide (s.audio.state = .absent)) 4,
    s.scenes.active.number,
    pendingCode s.scenes.pending ]

/-- A voice's state and target in a REPORT; a disabled voice shows OFF (R131, R181). -/
def reportVoice (s : State) (v : Voice) : List Nat :=
  [ if s.enabled v then (s.channel v).state.code else 0, (s.voice v).target.getD 0 ]

/-- The 40 characters of a REPORT's payload (R181, 11.2 layout). -/
def reportPayload (s : State) : List Byte :=
  (reportHead s ++ Voice.all.flatMap (reportVoice s)).map (BitVec.ofNat 8) ++
    s.counters.reportOrder.flatMap fun n => twoChars (BitVec.ofNat 16 n)

end Sys2Proof.Machine
end

