-- ==== Sys2Proof/Machine/Candidates.lean ====
section
/-! DEFINITION. Machine/Candidates.lean: candidate notes and shift arithmetic (chapter 05, sections 5.2 to 5.5). -/

namespace Sys2Proof.Machine

/-- The degree offsets of a scale type (R57). -/
def scaleOffsets (scale : Nat) : List Int :=
  if scale = 1 then [0, 2, 3, 5, 7, 8, 10]
  else if scale = 2 then [0, 2, 3, 5, 7, 8, 11]
  else if scale = 3 then [0, 2, 3, 5, 7, 9, 11]
  else if scale = 4 then [0, 2, 4, 5, 7, 9, 10]
  else if scale = 5 then [0, 2, 3, 5, 7, 9, 10]
  else [0, 2, 4, 5, 7, 9, 11]

/-- The degree whose offset lies nearest to p among degrees 0..7, the lower degree winning a tie (R74). -/
def snapDegree (scale : Nat) (p : Int) : Nat :=
  let offsets := scaleOffsets scale ++ [12]
  (List.range 8).foldl
    (fun best d => if (offsets.getD d 0 - p).natAbs < (offsets.getD best 0 - p).natAbs then d else best) 0

/-- The held note's pitch class above the key root (R74). -/
def pitchClass (h : Int) (root : Nat) : Int := (h - root) % 12

/-- The candidate of a DIATONIC interval before folding (R74, R75). -/
def diatonicCandidate (root scale : Nat) (h i : Int) : Int :=
  let p := pitchClass h root
  let n := (snapDegree scale p : Int) + i
  (h - p) + 12 * (n / 7) + (scaleOffsets scale).getD (n % 7).toNat 0

/-- The fold by distance: t moved by 12 toward h while it lies more than 12 away (R77). Each fold brings t nearer, so
as many folds as the distance are enough. -/
def distanceFold (h : Int) : Nat → Int → Int
  | 0, t => t
  | k + 1, t =>
    if 12 < t - h then distanceFold h k (t - 12)
    else if 12 < h - t then distanceFold h k (t + 12)
    else t

/-- The fold by range (R78). -/
def rangeFold (t : Int) : Int :=
  if t < Config.lowNote then t + 12 else if (Config.highNote : Int) < t then t - 12 else t

/-- Both folds in their order (R77, R78). -/
def foldCandidate (h t : Int) : Int := rangeFold (distanceFold h (t - h).natAbs t)

/-- The candidate of an interval before folding, as the rule's mode requires (R75, R76). -/
def unfoldedCandidate (scene : Scene) (mode : RuleMode) (h i : Int) : Int :=
  match mode with
  | .diatonic => diatonicCandidate scene.root scene.scale h i
  | .semitone => h + i
  | .off => h

/-- The candidate list of a rule: the primary, then the alternates (R79). -/
def candidates (scene : Scene) (rule : VoiceRule) (h : Nat) : List Nat :=
  (rule.primary :: rule.alternates).map fun i => (foldCandidate h (unfoldedCandidate scene rule.mode h i)).toNat

/-- A step clamped to 2048..8192 (R82). -/
def clampStep (x : Int) : Nat := (clampInt Config.minStep Config.maxStep x).toNat

/-- The step for target t from held note h and live P (R80, R81, R82). -/
def stepFor (npt : List Nat) (intonation : Intonation) (h liveP t : Nat) : Nat :=
  match intonation with
  | .correct => clampStep (roundHalfUp (Config.unison * liveP) (nptEntry npt t))
  | .follow => clampStep (roundHalfUp (Config.unison * nptEntry npt h) (nptEntry npt t))

/-- The glide step at position j (R85). -/
def glideStep (origin new j length : Nat) : Nat :=
  ((origin : Int) + roundHalfUp (((new : Int) - origin) * j) length).toNat

/-- A glide advanced by one position: the posted step, and the record unless it has reached its length (R85). -/
def advanceGlide (g : Glide) (new : Nat) : Nat × Option Glide :=
  let j := g.position + 1
  (glideStep g.origin new j g.length, if j < g.length then some { g with position := j } else none)

end Sys2Proof.Machine
end

