-- ==== Sys2Proof/Machine/MapOps.lean ====
section
/-! DEFINITION. Machine/MapOps.lean: the claim queue, the stage map and the occupation tests (chapter 06). -/

namespace Sys2Proof.Machine

/-! ### The claim queue -/

/-- An accepted CLAIM of another sender replaces its sender's queued claim (R94), joins at the tail (R95), or is dropped
from a full queue: none (R95). -/
def offerClaim (queue : List ClaimMsg) (m : ClaimMsg) : Option (List ClaimMsg) :=
  if queue.any fun q => decide (q.sender = m.sender) then
    some (queue.map fun q => if q.sender = m.sender then m else q)
  else if queue.length < Config.queueSize then some (queue ++ [m])
  else none

/-! ### The drain -/

/-- A note byte in 33..93 (R99, R100). -/
def noteInRange (b : Byte) : Bool := decide (Config.lowNote ≤ b.toNat) && decide (b.toNat ≤ Config.highNote)

/-- The live note of a drained claim (R99). -/
def drainedLive (b : Byte) : Option Nat := if noteInRange b then some b.toNat else none

/-- A drained claim's voice claims, item by item: an item with a note out of range, or with an index already taken, is
dropped (R100). -/
def drainedVoices (items : List ClaimItem) : List PeerVoice :=
  items.foldl
    (fun taken i =>
      if !noteInRange i.note then taken
      else if taken.any fun t => decide (t.voice = i.voice) then taken
      else taken ++ [{ voice := i.voice, note := i.note.toNat, age := i.age.toNat, doubled := i.doubled }]) []

/-- The entry a drained claim gives (R98). -/
def drainedEntry (m : ClaimMsg) : PeerEntry :=
  { id := m.sender, live := drainedLive m.live, silence := 0, voices := drainedVoices m.items }

/-- An entry created, or replaced, in id order (R98; log 20). -/
def putEntry (e : PeerEntry) : List PeerEntry → List PeerEntry
  | [] => [e]
  | x :: rest =>
    if e.id.toNat < x.id.toNat then e :: x :: rest
    else if e.id = x.id then e :: rest
    else x :: putEntry e rest

/-- The queued claims applied to the map, oldest first (R98). -/
def drainQueue (queue : List ClaimMsg) (map : List PeerEntry) : List PeerEntry :=
  queue.foldl (fun mp m => putEntry (drainedEntry m) mp) map

/-- A voice claim one decision older (R101). -/
def PeerVoice.older (v : PeerVoice) : PeerVoice := { v with age := satSucc Config.maxAge v.age }

/-- An entry not refreshed by this decision's drain: its claims age and its silence rises (R101, R102). -/
def PeerEntry.older (e : PeerEntry) : PeerEntry :=
  { e with silence := e.silence + 1, voices := e.voices.map PeerVoice.older }

/-- Whether an entry was refreshed by the drain of this queue (R98). -/
def refreshedBy (queue : List ClaimMsg) (e : PeerEntry) : Bool := queue.any fun m => decide (m.sender = e.id)

/-- Drain, then aging and silence of what was not refreshed (R98, R101, R102). -/
def drainAndAge (queue : List ClaimMsg) (map : List PeerEntry) : List PeerEntry :=
  (drainQueue queue map).map fun e => if refreshedBy queue e then e else e.older

/-- An entry whose silence has reached 64 (R102). -/
def PeerEntry.expired (e : PeerEntry) : Bool := decide (Config.expirySilence ≤ e.silence)

/-- Expired entries are removed, and EXPIRE counts each (R102). -/
def State.expireEntries (s : State) : State :=
  State.bumpTimes .expire (s.map.countP PeerEntry.expired)
    { s with map := s.map.filter fun e => !e.expired }

/-- A decision's drain, aging and expiry (R98, R101, R102, R111 step 2). -/
def State.updateMap (s : State) : State :=
  ({ s with map := drainAndAge s.claimQueue s.map, claimQueue := [] } : State).expireEntries

/-! ### Occupation tests -/

/-- A voice of this age is settled (R105). -/
def settled (age : Nat) : Bool := decide (Config.settledAge ≤ age)

/-- Whether a peer's voice claim outranks a voice of this station of the given age (R106). -/
def outranks (own peer : StationId) (ownAge : Nat) (c : PeerVoice) : Bool :=
  if c.doubled then false
  else if settled c.age && !settled ownAge then true
  else if !settled c.age && settled ownAge then false
  else decide (peer.toNat < own.toNat)

/-- Whether a peer entry alone forbids note t: its live note, an outranking claim on t, or with rubs off a rub against
either (R107 tests 1 to 3, R108). -/
def entryForbids (own : StationId) (rubs : Bool) (ownAge t : Nat) (e : PeerEntry) : Bool :=
  decide (e.live = some t) ||
  (e.voices.any fun c => decide (c.note = t) && outranks own e.id ownAge c) ||
  (!rubs && (decide (e.live = some (t + 1)) || (decide (0 < t) && decide (e.live = some (t - 1))) ||
    e.voices.any fun c => (decide (c.note = t + 1) || decide (c.note + 1 = t)) && outranks own e.id ownAge c))

/-- Whether note t clashes for a voice of the given age, when the station's other voices already hold `taken`
(R107). -/
def clashes (own : StationId) (map : List PeerEntry) (rubs : Bool) (taken : List Nat) (ownAge t : Nat) : Bool :=
  (map.any (entryForbids own rubs ownAge t)) || taken.any fun n => decide (n = t)

end Sys2Proof.Machine
end

