-- ==== Sys2Proof/Machine/Renderer.lean ====
section
/-! DEFINITION. Machine/Renderer.lean: the voice channels' grain cycle, ramps and postings, and the mixer (chapter 08
and section 5.6). -/

namespace Sys2Proof.Machine

/-! ### Grains -/

/-- The oldest captured position of a mark's grain: the least j with |16 j - ms| < Ps, ceil((ms - Ps + 1) / 16)
(R135). -/
def oldestIndex (m : Mark) : Int := ((m.pos.toNat : Int) - m.period + 16) / 16

/-- The newest captured position of a mark's grain. -/
def newestIndex (m : Mark) : Int := ((m.pos.toNat : Int) + m.period - 1) / 16

/-- That oldest position on the stage clock. -/
def oldestSample (m : Mark) : Pos := BitVec.ofInt 24 (oldestIndex m)

/-- One windowed sample: its offset u = 16 j - ms and round-half-up(x × (Ps - |u|) / Ps) (R135). -/
def windowedSample (ring : Cells Sample) (m : Mark) (j : Int) : Int × Int :=
  let u := 16 * j - m.pos.toNat
  let x := (readRing ring (BitVec.ofInt 24 j)).toInt
  (u, roundHalfUp (x * ((m.period : Int) - u.natAbs)) m.period)

/-- The grain of a source mark, read from the capture ring (R135). -/
def readGrain (ring : Cells Sample) (m : Mark) : Grain :=
  { mark := m
    samples := (List.range (newestIndex m - oldestIndex m + 1).toNat).map fun i =>
      windowedSample ring m (oldestIndex m + (i : Int)) }

/-- The output position of an offset around an output mark: round-half-up((m + u) / 16) (R137). -/
def landing (mark : Pos16) (u : Int) : Pos := ((mark + BitVec.ofInt 28 u + 8#28) >>> 4).setWidth 24

/-- The grain's first position F at an output mark (R137). -/
def firstPosition (g : Grain) (mark : Pos16) : Pos :=
  landing mark (match g.samples with
    | (u, _) :: _ => u
    | [] => 0)

/-- A grain added into the overlap buffer at an output mark, each sample scaled by 4096 / k (R137). -/
def addGrain (o : Cells Int) (g : Grain) (mark : Pos16) (k : Nat) : Cells Int :=
  g.samples.foldl
    (fun acc x =>
      let p := landing mark x.1
      writeOverlap acc p (readOverlap acc p + roundHalfUp (x.2 * Config.unison) k)) o

/-- The scale k of a grain: the step in force where it is voiced, 4096 where it is not (R137, R143). -/
def grainScale (g : Grain) (stepInForce : Option Nat) : Nat :=
  if g.mark.voiced then stepInForce.getD Config.unison else Config.unison

/-- The spacing after a grain, in sixteenths (R138 step 3, R143). -/
def grainSpacing (g : Grain) (stepInForce : Option Nat) : Nat :=
  if g.mark.voiced then
    (roundHalfUp (g.mark.period * Config.unison) (stepInForce.getD Config.unison)).toNat
  else g.mark.period

/-- A mark is eligible when its whole grain has been captured (R133). -/
def eligible (clock : Pos) (m : Mark) : Bool :=
  decide (0 ≤ behind16 clock.sixteenths (m.pos + BitVec.ofNat 28 m.period))

/-- How far a mark lies from a source target (R133). -/
def markDistance (target : Pos16) (m : Mark) : Nat := (behind16 target m.pos).natAbs

/-- The eligible mark nearest the target, the older of two equally near (R133). -/
def chooseMark (marks : List Mark) (clock : Pos) (target : Pos16) : Option Mark :=
  (marks.filter (eligible clock)).foldl
    (fun best m =>
      match best with
      | none => some m
      | some b => if markDistance target m < markDistance target b then some m else some b) none

/-- The placement point of R132 and R141: (output mark - period) / 16, rounded down, - 64. -/
def placementBefore (mark : Pos16) (period : Nat) : Pos :=
  ((mark - BitVec.ofNat 28 period) >>> 4).setWidth 24 - BitVec.ofNat 24 Config.placementLead

/-- The source period of the next register, or 2048 where it is EMPTY (R132, R141). -/
def NextReg.period : NextReg → Nat
  | .empty => Config.unvoicedPeriod
  | .fetching m => m.period
  | .ready g => g.mark.period

/-! ### The grain cycle -/

/-- The source choice of a scheduling: with the next register EMPTY, the mark nearest the output mark - 12,288 is loaded
by reuse or asked for as a FETCH (R133, R134, R138 step 5). -/
def State.chooseSource (v : Voice) (s : State) : State :=
  let c := s.channel v
  match c.next with
  | .fetching _ => s
  | .ready _ => s
  | .empty =>
    match chooseMark s.marks s.clock (c.outputMark.getD 0 - BitVec.ofNat 28 Config.sourceDelay) with
    | none => s
    | some m =>
      match c.current with
      | some g =>
        if g.mark.pos = m.pos then s.setChannel v { c with next := .ready g }
        else (s.setChannel v { c with next := .fetching m }).requestFetch v m
      | none => (s.setChannel v { c with next := .fetching m }).requestFetch v m

/-- The posted step, where present, becomes the step in force (R83, R138 step 2). -/
def State.takePostedStep (v : Voice) (s : State) : State :=
  match (s.voice v).postedStep with
  | some k => s.setChannel v { s.channel v with stepInForce := some k }
  | none => s

/-- Promotion: the next grain becomes current, or REPEAT is counted and the current grain stays (R138 step 1, R140). -/
def State.promote (v : Voice) (s : State) : State :=
  let c := s.channel v
  match c.next with
  | .ready g => s.setChannel v { c with current := some g, next := .empty }
  | .empty => s.bump .repeats
  | .fetching _ => s.bump .repeats

/-- Scheduling: the output mark advances by the spacing of the grain just placed (R138 step 3). -/
def State.schedule (v : Voice) (placed : Grain) (s : State) : State :=
  let c := s.channel v
  s.setChannel v
    { c with outputMark := c.outputMark.map (· + BitVec.ofNat 28 (grainSpacing placed c.stepInForce)) }

/-- The channel asks for a PLACE of its grain at its output mark, and its placement point is taken up (R137). -/
def State.requestPlace (v : Voice) (g : Grain) (s : State) : State :=
  let c := s.channel v
  (s.setChannel v { c with placementPoint := none }).request (.place v g (c.outputMark.getD 0))

/-- The channel's placement point set to a position (R138 step 4). -/
def State.setPlacementPoint (v : Voice) (p : Pos) (s : State) : State :=
  s.setChannel v { s.channel v with placementPoint := some p }

/-- The cycle's advance after a PLACE or a drop: promotion, step, scheduling, placement point, choice; then the PLACE
asked for at once where the new placement point is already due, or the grain dropped and the cycle advanced again where
its first position is already due (R138, R142). `fuel` bounds the repeated drops. -/
def State.advanceCycle (v : Voice) : Nat → Grain → State → State
  | 0, _, s => s
  | fuel + 1, placed, s =>
    let s1 := ((s.promote v).takePostedStep v).schedule v placed
    let c := s1.channel v
    match c.current with
    | none => s1
    | some g =>
      let first := firstPosition g (c.outputMark.getD 0)
      let point := first - BitVec.ofNat 24 Config.placementLead
      let s2 := (s1.setPlacementPoint v point).chooseSource v
      if isDue s2.clock first then State.advanceCycle v fuel g (s2.bump .drop)
      else if isDue s2.clock point then s2.requestPlace v g
      else s2

/-- Enough fuel for repeated drops or silent placements: each moves the output mark on by at least one sixteenth, and a
first position lies at most 896 samples before its mark. -/
def State.cycleFuel (v : Voice) (s : State) : Nat :=
  (behind16 s.clock.sixteenths ((s.channel v).outputMark.getD 0)).toNat + 32768

/-- A silent placement's advance: the posted step, the output mark 2048 on, the placement point, the choice (R141). -/
def State.silentPlacement (v : Voice) (s : State) : State :=
  let s1 := s.takePostedStep v
  let c := s1.channel v
  let mark := c.outputMark.getD 0 + BitVec.ofNat 28 Config.unvoicedPeriod
  (s1.setChannel v
    { c with outputMark := some mark, placementPoint := some (placementBefore mark c.next.period) }).chooseSource v

/-- Goes on with `again` where the placement point just set is already due (R141, R150). -/
def State.silentAgain (v : Voice) (again : State → State) (s : State) : State :=
  match (s.channel v).placementPoint with
  | some p => if isDue s.clock p then again s else s
  | none => s

/-- What a due placement point brings: the PLACE of the current grain (R137), the promotion of a ready next grain, or a
silent placement, which is taken again while its new placement point is already due (R141, R150). DESIGN CHOICE (log
30): a ready grain whose first position is due at that moment is dropped and the cycle advanced in the same event,
without a PLACE asked for, whether or not the unit is FREE. -/
def State.reachPlacementPoint (v : Voice) : Nat → State → State
  | 0, s => s
  | fuel + 1, s =>
    let c := s.channel v
    match c.current with
    | some g => s.requestPlace v g
    | none =>
      match c.next with
      | .ready g =>
        let s1 := s.setChannel v { c with current := some g, next := .empty, placementPoint := none }
        if isDue s.clock (firstPosition g (c.outputMark.getD 0)) then
          (s1.bump .drop).advanceCycle v (s.cycleFuel v) g
        else s1.requestPlace v g
      | .empty => State.silentAgain v (State.reachPlacementPoint v fuel) (s.silentPlacement v)
      | .fetching _ => State.silentAgain v (State.reachPlacementPoint v fuel) (s.silentPlacement v)

/-- The placement point of voice v, where it is due, is reached (R128 step 4, R137, R141). -/
def State.placementPointDue (v : Voice) (s : State) : State :=
  match (s.channel v).placementPoint with
  | some p => if isDue s.clock p then s.reachPlacementPoint v (s.cycleFuel v) else s
  | none => s

/-- A cycle's start from PARKED, or its restart from LEAVING with the cycle stopped (R132). -/
def State.startCycle (v : Voice) (fromParked : Bool) (s : State) : State :=
  let c := s.channel v
  let chosen := chooseMark s.marks s.clock (s.clock - 640#24).sixteenths
  let period := (chosen.map Mark.period).getD Config.unvoicedPeriod
  let mark := (s.clock + 128#24).sixteenths + BitVec.ofNat 28 period
  let s1 := s.setChannel v
    { c with
      state := .entering
      stepInForce := (s.voice v).postedStep
      rampStart := none
      leaveRate := 1
      ramp := if fromParked then 0 else c.ramp
      outputMark := some mark
      placementPoint := some (placementBefore mark period)
      current := none
      next := (chosen.map NextReg.fetching).getD .empty
      overlap := if fromParked then [] else c.overlap
      cycleRunning := true }
  match chosen with
  | some m => s1.requestFetch v m
  | none => s1

/-! ### Postings -/

/-- A target posted to voice v, with or without a glide record (R129). A re-entry from LEAVING while the cycle is
running sets the ramp start to the newest due position, which no later PLACE replaces (R139; log 34). -/
def State.postTarget (v : Voice) (gliding : Bool) (s : State) : State :=
  let c := s.channel v
  match c.state with
  | .off => s
  | .parked => s.startCycle v true
  | .entering => s
  | .sounding => s.setChannel v { c with state := if gliding then .gliding else .sounding }
  | .gliding => s.setChannel v { c with state := if gliding then .gliding else .sounding }
  | .leaving =>
    if c.cycleRunning then
      s.setChannel v { c with state := .entering, leaveRate := 1, rampStart := some s.clock }
    else s.startCycle v false

/-- A "no target" posting on a channel (R129). -/
def Channel.noTarget (c : Channel) : Channel :=
  match c.state with
  | .entering => { c with state := .leaving, leaveRate := 1 }
  | .sounding => { c with state := .leaving, leaveRate := 1 }
  | .gliding => { c with state := .leaving, leaveRate := 1 }
  | .off => c
  | .parked => c
  | .leaving => c

/-- A "no target" posting to voice v (R129). -/
def State.postNoTarget (v : Voice) (s : State) : State := s.setChannel v (s.channel v).noTarget

/-- Where a voice without a target rests under a rule (R130, R144, R146). -/
def restState (ruleOff : Bool) : VoiceState := if ruleOff then .off else .parked

/-- Whether the voice is ENTERING, SOUNDING, GLIDING or LEAVING, and so has or had a grain cycle. -/
def VoiceState.active : VoiceState → Bool
  | .off => false
  | .parked => false
  | .entering => true
  | .sounding => true
  | .gliding => true
  | .leaving => true

/-! ### Due positions -/

/-- The ramp's advance at due position q (R139). -/
def Channel.advanceRamp (q : Pos) (c : Channel) : Channel :=
  match c.state with
  | .entering =>
    match c.rampStart with
    | some p => if isDue q p then { c with ramp := min (c.ramp + 1) Config.fullRamp } else c
    | none => c
  | .sounding => { c with ramp := Config.fullRamp }
  | .gliding => { c with ramp := Config.fullRamp }
  | .leaving => { c with ramp := c.ramp - c.leaveRate }
  | .off => { c with ramp := 0 }
  | .parked => { c with ramp := 0 }

/-- What a channel hands the mixer for position q: its grain sample and its ramp count before the event (R128). -/
def Channel.handOver (q : Pos) (c : Channel) : Int × Nat :=
  if c.state.active then (readOverlap c.overlap q, c.ramp) else (0, 0)

/-- A channel after position q has become due: its entry for q freed and its ramp advanced (R128 steps 2 and 3). -/
def Channel.passPosition (q : Pos) (c : Channel) : Channel :=
  ({ c with overlap := writeOverlap c.overlap q 0 } : Channel).advanceRamp q

/-- A voice sample: s × g × r / 32768 with r in 256ths, saturated (R89). -/
def voiceSample (handed : Int × Nat) (level : Nat) : Int :=
  saturate24 (roundHalfUp (handed.1 * gain level * handed.2) (32768 * Config.fullRamp))

/-- The stereo mix of the voice samples under the rules' pans (R90). -/
def mixSamples (vs : Quad Int) (rules : Quad VoiceRule) : Mixer :=
  { voices := vs
    left := saturate24 (roundHalfUp (Voice.all.map fun v => vs.get v * (64 - (rules.get v).pan)).sum 128)
    right := saturate24 (roundHalfUp (Voice.all.map fun v => vs.get v * (64 + (rules.get v).pan)).sum 128) }

/-- The mixer's samples for a newly due position (R89, R90, R91, R128). -/
def mixPosition (q : Pos) (channels : Quad Channel) (rules : Quad VoiceRule) : Mixer :=
  mixSamples (Quad.ofFn fun v => voiceSample ((channels.get v).handOver q) (rules.get v).level) rules

/-- Position q, the new stage clock value, becomes due at every channel (R128). -/
def State.positionDue (s : State) : State :=
  { s with
    mixer := mixPosition s.clock s.channels s.scenes.active.rules
    channels := Quad.ofFn fun v => (s.channels.get v).passPosition s.clock }

/-- An ENTERING voice whose ramp count is 256 becomes SOUNDING (R139). -/
def State.rampFull (v : Voice) (s : State) : State :=
  let c := s.channel v
  match c.state with
  | .entering => if c.ramp = Config.fullRamp then s.setChannel v { c with state := .sounding } else s
  | _ => s

/-! ### Jobs' completions -/

/-- A completed FETCH fills the next register of a voice it serves (R135, R136). -/
def Channel.takeGrain (g : Grain) (c : Channel) : Channel :=
  match c.next with
  | .fetching m => if m.pos = g.mark.pos then { c with next := .ready g } else c
  | _ => c

/-- A FETCH's completion for its owner and partner (R135, R136). -/
def State.fetchDone (owner : Voice) (partner : Option Voice) (m : Mark) (s : State) : State :=
  let g := readGrain s.ring m
  let s1 := s.setChannel owner ((s.channel owner).takeGrain g)
  match partner with
  | some p => s1.setChannel p ((s1.channel p).takeGrain g)
  | none => s1

/-- A PLACE's grain added at its completion; the first one added after a cycle's start sets the ramp start, also where a
hush has stopped the cycle meanwhile (R137, R139, R145). DESIGN CHOICE (log 34): a voice that has re-entered from
LEAVING before its cycle's first PLACE has completed keeps the ramp start of the re-entry, and that PLACE's first
position does not replace it. -/
def State.placeGrain (v : Voice) (g : Grain) (mark : Pos16) (s : State) : State :=
  let c := s.channel v
  s.setChannel v
    { c with
      overlap := addGrain c.overlap g mark (grainScale g c.stepInForce)
      rampStart := if c.rampStart.isNone then some (firstPosition g mark) else c.rampStart }

/-- The cycle's advance, where the cycle is running (R138, R145). -/
def State.advanceIfRunning (v : Voice) (g : Grain) (s : State) : State :=
  if (s.channel v).cycleRunning then s.advanceCycle v (s.cycleFuel v) g else s

/-- A PLACE's completion, by what its owner makes of it (R138, R142, R145, R153). -/
def State.placeDone (v : Voice) (g : Grain) (mark : Pos16) (fate : Fate) (s : State) : State :=
  match fate with
  | .live => (s.placeGrain v g mark).advanceIfRunning v g
  | .addsOnly => s.placeGrain v g mark
  | .dropped => s.advanceIfRunning v g
  | .discarded => s

/-! ### Withdrawals -/

/-- Whether this is a PLACE of voice v whose grain's first position is due (R142). -/
def Job.overdue (clock : Pos) (v : Voice) : Job → Bool
  | .place o g mark => decide (o = v) && isDue clock (firstPosition g mark)
  | _ => false

/-- The grain of a PLACE. -/
def Job.grain? : Job → Option Grain
  | .place _ g _ => some g
  | _ => none

/-- A drop of a waiting PLACE: it is removed and the cycle advances at once (R142). -/
def State.dropWaiting (v : Voice) (s : State) : State :=
  match s.arbiter.list.find? (Job.overdue s.clock v) with
  | some j =>
    let s1 := ({ s with arbiter := { s.arbiter with list := s.arbiter.list.erase j } } : State).bump .drop
    match j.grain? with
    | some g => s1.advanceIfRunning v g
    | none => s1
  | none => s

/-- What becomes of a running PLACE that is dropped: nothing is added; the cycle advances at its completion, unless a
hush has stopped it (R142, R145). -/
def Fate.afterDrop : Fate → Fate
  | .live => .dropped
  | .addsOnly => .discarded
  | .dropped => .dropped
  | .discarded => .discarded

/-- Whether a running PLACE of voice v would still add its grain although its first position is due. -/
def Running.overdue (clock : Pos) (v : Voice) (r : Running) : Bool :=
  r.job.overdue clock v && (decide (r.fate = .live) || decide (r.fate = .addsOnly))

/-- A drop of a granted PLACE (R142). -/
def State.dropRunning (v : Voice) (s : State) : State :=
  match s.arbiter.running with
  | some r =>
    if r.overdue s.clock v then
      ({ s with arbiter := { s.arbiter with running := some { r with fate := r.fate.afterDrop } } } : State).bump .drop
    else s
  | none => s

/-- A grain whose first position is due before its PLACE has completed is dropped (R142). -/
def State.dropGrain (v : Voice) (s : State) : State := (s.dropRunning v).dropWaiting v

/-- Whether the newest arrival has overwritten the oldest sample of a mark's grain (R135). -/
def grainOverwritten (clock : Pos) (m : Mark) : Bool :=
  decide ((Config.ringSize : Int) ≤ behind (clock - 1) (oldestSample m))

/-- A channel's next register returned to EMPTY where it awaits this mark (R135). -/
def Channel.dropFetch (pos : Pos16) (c : Channel) : Channel :=
  match c.next with
  | .fetching m => if m.pos = pos then { c with next := .empty } else c
  | _ => c

/-- Whether this FETCH serves voice v and reads this mark. -/
def Job.fetches (v : Voice) (m : Mark) (j : Job) : Bool :=
  j.isFetchFor v && (match j with
    | .fetch _ _ m' => decide (m'.pos = m.pos)
    | _ => false)

/-- The next register of voice v, and of the other voice that a withdrawn FETCH served, returns to EMPTY. -/
def State.emptyServed (v : Voice) (jobs : List Job) (m : Mark) (s : State) : State :=
  s.forVoices fun w s =>
    if w = v ∨ jobs.any (Job.isFetchFor w) then s.setChannel w ((s.channel w).dropFetch m.pos) else s

/-- A FETCH whose grain's oldest sample is overwritten is withdrawn, for both channels where it is merged (R135,
R136). -/
def State.withdrawOverwritten (v : Voice) (s : State) : State :=
  match (s.channel v).next with
  | .fetching m =>
    if grainOverwritten s.clock m then
      let gone := s.arbiter.list.filter (Job.fetches v m) ++
        (s.arbiter.running.toList.filter fun r => r.job.fetches v m && decide (r.fate ≠ .discarded)).map Running.job
      ({ s with arbiter :=
          { list := s.arbiter.list.filter fun j => !j.fetches v m
            running := s.arbiter.running.map fun r =>
              if r.job.fetches v m then { r with fate := .discarded } else r } } : State).emptyServed v gone m
    else s
  | _ => s

/-! ### Stopping the cycle -/

/-- A channel at rest: what the stop of R144 and the silence of R146 leave. -/
def Channel.stopped (ruleOff : Bool) (c : Channel) : Channel :=
  { c with
    state := restState ruleOff
    ramp := 0
    rampStart := none
    leaveRate := 1
    stepInForce := none
    outputMark := none
    placementPoint := none
    current := none
    next := .empty
    overlap := []
    cycleRunning := false }

/-- A LEAVING voice whose ramp count is 0 stops its grain cycle (R144). -/
def State.stopCycle (v : Voice) (s : State) : State :=
  let c := s.channel v
  match c.state with
  | .leaving =>
    if c.ramp = 0 then
      ({ s with arbiter := (s.arbiter.withdrawPlace v).withdrawFetch v } : State).setChannel v
        (c.stopped (s.ruleOff v))
    else s
  | _ => s

/-- A channel at a hush (R129, R145). -/
def Channel.hush (c : Channel) : Channel :=
  if c.state.active then
    { c.noTarget with leaveRate := 4, next := .empty, placementPoint := none, cycleRunning := false }
  else c

/-- The renderer and its jobs at a hush (R145, R157). -/
def State.hushRenderer (s : State) : State :=
  { s with channels := Quad.ofFn fun v => (s.channels.get v).hush, arbiter := s.arbiter.hush }

/-- A channel at a loss of audio (R146). -/
def Channel.silence (ruleOff : Bool) (c : Channel) : Channel :=
  if c.state.active then c.stopped ruleOff
  else { c.stopped ruleOff with state := c.state }

/-- The renderer, mixer and jobs at a loss of audio (R146, R157). -/
def State.silenceRenderer (s : State) : State :=
  { s with
    channels := Quad.ofFn fun v => (s.channels.get v).silence (s.ruleOff v)
    mixer := silentMixer
    arbiter := resetArbiter }

end Sys2Proof.Machine
end

