-- ==== Sys2Proof/Machine/LineOps.lean ====
section
/-! DEFINITION. Machine/LineOps.lean: the line controller's receiver and transmitter (chapter 10). -/

namespace Sys2Proof.Machine

/-- Replaces the line controller's state. -/
def State.setLine (l : LineControl) (s : State) : State := { s with line := l }

/-! ### Characters on the line -/

/-- A character's ten levels in the order sent, mark being true: the start bit at space, the eight data bits least
significant first, the stop bit at mark (R158). -/
def charBits (c : Byte) : List Bool := false :: (List.range 8).map (fun i => c.getLsbD i) ++ [true]

/-- The character whose data bits these are, least significant first (R158). -/
def charOf (bits : List Bool) : Byte := BitVec.ofNat 8 (bits.foldr (fun b n => 2 * n + b.toNat) 0)

/-- The character heard over ten bit times; none where no start bit came or the stop bit is at space (R158, R171). -/
def heardChar (levels : List Bool) : Option Byte :=
  if levels.head? = some false ∧ levels.getLast? = some true then some (charOf ((levels.drop 1).take 8)) else none

/-- LINE_DE is driven only while in SENDING (R169). -/
def LineControl.de (l : LineControl) : Bool := decide (l.transmitter = .sending)

/-- The character that is being sent; none where LINE_TX rests at mark (R158, R171). -/
def LineControl.txChar (l : LineControl) : Option Byte :=
  match l.transmitter, l.frameInHand with
  | .sending, some f => f.chars[f.sent]?
  | _, _ => none

/-- The level of LINE_TX in this bit time, mark being true (R158). -/
def LineControl.tx (l : LineControl) : Bool :=
  match l.txChar with
  | some c => (charBits c).getD l.echo.length true
  | none => true

/-! ### Slots and gaps -/

/-- The slot a frame goes out from: a slot is pending when it is not empty, but the CLAIM slot is not while the clash
flag is set; the CLAIM slot goes first (R169). -/
def LineControl.pendingSlot (l : LineControl) : Option Slot :=
  if l.claimSlot.isSome && !l.clash then some .claim
  else if l.reportSlot.isSome then some .report
  else none

/-- The slot a content belongs to. -/
def SlotContent.slot : SlotContent → Slot
  | .claim _ => .claim
  | .report _ => .report

/-- When a slot becomes pending an IDLE transmitter enters DEFERRING (R170). -/
def LineControl.wake (l : LineControl) : LineControl :=
  if l.transmitter = .idle ∧ l.pendingSlot.isSome then { l with transmitter := .deferring } else l

/-- DEFERRING where a slot is pending, IDLE where none is (R171, R173, R174). -/
def LineControl.settleTransmitter (l : LineControl) : LineControl :=
  { l with transmitter := if l.pendingSlot.isSome then .deferring else .idle }

/-- The frame in hand told that its slot has been given another content (R169). -/
def FrameInHand.slotReplaced (slot : Slot) (f : FrameInHand) : FrameInHand :=
  if f.content.slot = slot then { f with replaced := true } else f

/-- A record placed in the CLAIM slot, replacing what it holds (R169). -/
def LineControl.placeClaim (r : ClaimRecord) (l : LineControl) : LineControl :=
  ({ l with claimSlot := some r, frameInHand := l.frameInHand.map (FrameInHand.slotReplaced .claim) } :
    LineControl).wake

/-- A request placed in the REPORT slot, replacing what it holds (R169, R180). -/
def LineControl.placeReport (clear : Bool) (l : LineControl) : LineControl :=
  ({ l with reportSlot := some clear, frameInHand := l.frameInHand.map (FrameInHand.slotReplaced .report) } :
    LineControl).wake

/-- The rotating gap, 12 + 2 × ((own id - last-sender - 1) mod 16) bit times (R170). -/
def rotatingGap (own last : StationId) : Nat := 12 + 2 * (own - last - 1).toNat

/-- The backoff gap, 44 + 2 × own id bit times (R170). -/
def backoffGap (own : StationId) : Nat := 44 + 2 * own.toNat

/-- The gap the transmitter waits for, where it waits for one (R170). -/
def LineControl.gap (own : StationId) (l : LineControl) : Option Nat :=
  match l.transmitter with
  | .deferring => some (rotatingGap own l.lastSender)
  | .backoff => some (backoffGap own)
  | .idle => none
  | .sending => none

/-! ### The receiver -/

/-- A complete character restarts the idle time, with the line at mark (R158, R159). -/
def LineControl.atMark (l : LineControl) : LineControl := { l with rx := .mark, spaceRun := 0, idle := 0 }

/-- A start bit sets the idle time to 0 (R159). -/
def LineControl.startBit (l : LineControl) : LineControl := { l with rx := .character [], idle := 0 }

/-- The frame in reception goes bad at once: SKIPPING with the reason ERROR (R162, R163). -/
def State.badFrame (s : State) : State :=
  ({ s with line := { s.line with receiver := .skippingError } } : State).bump .badFrame

/-- What the receiver does with the characters of the frame so far (R162, R165). -/
inductive CharTest where
  | bad
  | skip (sender : StationId)
  | keep
deriving DecidableEq, Repr

/-- Whether the group mask addresses the station's group: group g's bit is bit g (R59). -/
def maskAddresses (group : BitVec 2) (mask : Byte) : Bool := mask.getLsbD group.toNat

/-- The test of the third character of the kinds that are skipped by address (R162, R165). -/
def addressTest (straps : StrapPins) (h third : Byte) : CharTest :=
  if headerKind h = kindScene ∨ headerKind h = kindControl then
    if maskAddresses straps.group third then .keep else .skip (headerSender h)
  else if headerKind h = kindQuery then
    if third.toNat = straps.id.toNat then .keep else .skip (headerSender h)
  else .keep

/-- The receiver's checks as it appends a character (R162, R165). -/
def charTest (straps : StrapPins) (chars : List Byte) : CharTest :=
  match chars with
  | [h] => if headerKind h = kindReport then .skip (headerSender h) else .keep
  | [_, len] => if Config.maxPayload < len.toNat then .bad else .keep
  | [h, _, third] => addressTest straps h third
  | _ => if Config.maxFrame < chars.length then .bad else .keep

/-- A complete character appended to the frame in reception (R162). -/
def State.appendChar (c : Byte) (chars : List Byte) (capture : Pos) (whileSending : Bool) (s : State) : State :=
  match charTest s.straps (chars ++ [c]) with
  | .bad => s.badFrame
  | .skip sender => { s with line := { s.line with receiver := .skippingGroup sender } }
  | .keep => { s with line := { s.line with receiver := .receiving (chars ++ [c]) capture whileSending } }

/-- A complete character: it restarts the idle time, and in RECEIVING it joins the frame (R159, R161, R162). DESIGN
CHOICE (log 36): in READY and in BREAK no character can complete (R161); the command there restarts the idle time with
the line at mark, as R159 has it for any complete character, and the receiver stays where it is. DESIGN CHOICE (log
37): the character is taken on the sender's word, also where no start bit has been given before it. -/
def State.takeChar (c : Byte) (s : State) : State :=
  let s1 := s.setLine s.line.atMark
  match s.line.receiver with
  | .receiving chars capture ws => s1.appendChar c chars capture ws
  | .gapWait => s1
  | .ready => s1
  | .skippingGroup _ => s1
  | .skippingError => s1
  | .breaking => s1

/-- A whole frame bearing the own id, begun while this station was not SENDING: the clash flag is set and CLASH
counted (R168). -/
def State.clashTest (sender : StationId) (whileSending : Bool) (s : State) : State :=
  if sender = s.straps.id ∧ whileSending = false then
    ({ s with line := { s.line with clash := true } } : State).bump .clash
  else s

/-- A whole frame is routed by its kind: an accepted one is owed to its block, a malformed one counts BADFRAME (R166).
-/
def State.route (capture : Pos) (h : Byte) (payload : List Byte) (s : State) : State :=
  match routeFrame s.straps.id capture h payload with
  | .accepted a => { s with owed := s.owed ++ [.accept a] }
  | .malformed => s.bump .badFrame
  | .nothing => s

/-- The judgement of an ended frame (R166, R167, R168). -/
def State.judge (chars : List Byte) (capture : Pos) (whileSending : Bool) (s : State) : State :=
  match chars with
  | [] => s.bump .badFrame
  | h :: _ =>
    if isWhole chars then
      ((s.setLine { s.line with lastSender := headerSender h }).clashTest (headerSender h) whileSending).route
        capture h (payloadOf chars)
    else s.bump .badFrame

/-- The idle time has reached 12 with the receiver back in READY (R161, R166). -/
def LineControl.readyAtBoundary (l : LineControl) : LineControl :=
  { l with receiver := .ready, rx := .mark, spaceRun := 0, idle := Config.boundaryIdle }

/-- The end of a frame at its boundary (R161, R165, R166). In READY the idle time has passed it already, and in BREAK
the line is at space: nothing happens. -/
def State.endFrame (s : State) : State :=
  let s1 := s.setLine s.line.readyAtBoundary
  match s.line.receiver with
  | .gapWait => s1
  | .receiving chars capture ws => s1.judge chars capture ws
  | .skippingGroup sender => s1.setLine { s1.line with lastSender := sender }
  | .skippingError => s1
  | .ready => s
  | .breaking => s

/-- Whether the idle time may have gathered, which it does at mark alone (R159). In GAP_WAIT and SKIPPING no step marks
the end of a character, since none is assembled; so a character begun there does not count against it (R161; log 2). -/
def LineControl.mayIdle (l : LineControl) : Bool :=
  match l.rx with
  | .mark => true
  | .space => false
  | .character _ =>
    match l.receiver with
    | .gapWait => true
    | .skippingGroup _ => true
    | .skippingError => true
    | .ready => false
    | .receiving _ _ _ => false
    | .breaking => false

/-- The frame boundary: the idle time has reached 12 (R159, R161, R166; log 2). -/
def State.takeBoundary (s : State) : State := if s.line.mayIdle then s.endFrame else s

/-- The line's return to mark after space (R161, R163). DESIGN CHOICE (log 37): the return is taken on the sender's
word, also where the line stands at mark already or inside a character; so in RECEIVING it counts a framing error there
too. -/
def State.takeReturnToMark (s : State) : State :=
  let s1 := s.setLine s.line.atMark
  match s.line.receiver with
  | .receiving _ _ _ => s1.badFrame
  | .breaking => s1.setLine { s1.line with receiver := .gapWait }
  | .gapWait => s1
  | .skippingGroup _ => s1
  | .skippingError => s1
  | .ready => s

/-! ### The transmitter -/

/-- The content of the pending slot. -/
def LineControl.pendingContent (l : LineControl) : Option SlotContent :=
  match l.pendingSlot with
  | some .claim => l.claimSlot.map SlotContent.claim
  | some .report => l.reportSlot.map SlotContent.report
  | none => none

/-- The characters of a frame built from a slot's content at the start of an attempt (R169, R178, R181). -/
def State.frameFor (s : State) : SlotContent → List Byte
  | .claim r => buildFrame kindClaim s.straps.id (claimPayload r)
  | .report _ => buildFrame kindReport s.straps.id (reportPayload s)

/-- The gap has passed: the frame in hand is built and its send begins; with no slot pending the transmitter enters IDLE
and the collision count becomes 0 (R170). That the frame in hand is emptied at the way from BACKOFF to IDLE is the
model's choice (log 33). -/
def State.beginSend (s : State) : State :=
  match s.line.pendingContent with
  | some k =>
    s.setLine { s.line with
      transmitter := .sending
      frameInHand := some { chars := s.frameFor k, sent := 0, content := k, replaced := false }
      echo := [] }
  | none => s.setLine { s.line with
      transmitter := .idle, collisions := 0, collisionSlot := none, frameInHand := none, echo := [] }

/-- The slot a frame came from is emptied, unless it has been given another content meanwhile (R169, R173). -/
def LineControl.emptySlot (f : FrameInHand) (l : LineControl) : LineControl :=
  if f.replaced then l
  else
    match f.content with
    | .claim _ => { l with claimSlot := none }
    | .report _ => { l with reportSlot := none }

/-- A success reported to its owner: the last-sent record for a CLAIM (R122), the counters' clear for a clearing REPORT
(R183). -/
def State.reportSuccess (k : SlotContent) (s : State) : State :=
  match k with
  | .claim r => { s with alloc := { s.alloc with lastSent := some r, sinceSend := 0 } }
  | .report clear => if clear then { s with counters := zeroCounters } else s

/-- The last character has matched: the send has succeeded (R171). -/
def State.sendSuccess (f : FrameInHand) (s : State) : State :=
  let l := ({ s.line with
      lastSender := s.straps.id, collisions := 0, collisionSlot := none, frameInHand := none, echo := [] } :
    LineControl).emptySlot f
  (s.setLine l.settleTransmitter).reportSuccess f.content

/-- A mismatch: COLLIDE is counted; the eighth consecutive collision of one slot's attempts gives up the frame (R172,
R173). That a give-up empties the frame in hand is the model's choice (log 33). -/
def State.collide (f : FrameInHand) (s : State) : State :=
  let s1 := s.bump .collide
  let held := if s.line.collisionSlot = some f.content.slot then s.line.collisions else 0
  if held + 1 < Config.giveUpCollisions then
    s1.setLine { s1.line with
      transmitter := .backoff, collisions := held + 1, collisionSlot := some f.content.slot, frameInHand := some f,
      echo := [] }
  else
    let l := ({ s1.line with collisions := 0, collisionSlot := none, frameInHand := none, echo := [] } :
      LineControl).emptySlot f
    (s1.setLine l.settleTransmitter).bump .giveUp

/-- The end of a sent character, with the character heard back (R171). -/
def State.checkEcho (heard : Option Byte) (f : FrameInHand) (s : State) : State :=
  if heard.isSome ∧ heard = f.chars[f.sent]? then
    if f.sent + 1 < f.chars.length then
      s.setLine { s.line with frameInHand := some { f with sent := f.sent + 1 }, echo := [] }
    else s.sendSuccess f
  else s.collide f

/-- The send that a break has overtaken ends as a collision (R174). -/
def State.endSendForBreak (s : State) : State :=
  match s.line.transmitter, s.line.frameInHand with
  | .sending, some f => s.collide f
  | _, _ => s

end Sys2Proof.Machine
end

