-- ==== Sys2Proof/Machine/SceneOps.lean ====
section
/-! DEFINITION. Machine/SceneOps.lean: scenes taking effect and the acceptance of a SCENE (chapter 04). -/

namespace Sys2Proof.Machine

/-- A channel whose rule in the new scene is OFF: PARKED becomes OFF, a sounding voice is posted "no target" (R118,
R130). -/
def Channel.sceneOff (c : Channel) : Channel :=
  match c.state with
  | .parked => { c with state := .off }
  | .off => c
  | .entering => c.noTarget
  | .sounding => c.noTarget
  | .gliding => c.noTarget
  | .leaving => c

/-- A channel whose rule in the new scene is not OFF: OFF becomes PARKED (R130). -/
def Channel.sceneOn (c : Channel) : Channel :=
  match c.state with
  | .off => { c with state := .parked }
  | .parked => c
  | .entering => c
  | .sounding => c
  | .gliding => c
  | .leaving => c

/-- What a scene taking effect does to an enabled voice; a disabled one stays OFF (R7, R118, R130). -/
def State.sceneVoice (v : Voice) (s : State) : State :=
  if s.enabled v then
    if s.ruleOff v then (s.setVoice v clearedVoice).setChannel v (s.channel v).sceneOff
    else s.setChannel v (s.channel v).sceneOn
  else s

/-- A scene takes effect: it becomes the active scene, no pending scene remains, an analysis in flight is abandoned, and
the voices are moved (R31, R67, R118, R130). -/
def State.sceneTakesEffect (scene : Scene) (s : State) : State :=
  (({ s with scenes := { s.scenes with active := scene, pending := none } } : State).abandonAnalysis).forVoices
    State.sceneVoice

/-- A scene becomes the pending scene, replacing any scene already pending (R64, R65). -/
def State.holdScene (scene : Scene) (c : SwitchCondition) (s : State) : State :=
  { s with scenes := { s.scenes with pending := some { scene := scene, condition := c } } }

/-- The samples since the frame's arrival capture, modulo 2^24 (R65). -/
def elapsedCount (clock capture : Pos) : Nat := (clock - capture).toNat

/-- An accepted SCENE is switched in by its switch mode (R63, R64, R65). -/
def State.switchScene (capture : Pos) (m : SceneMsg) (s : State) : State :=
  match keptSwitch m.switchMode with
  | .atOnce => s.sceneTakesEffect (keptScene m)
  | .atRest => s.holdScene (keptScene m) .atRest
  | .atDelay =>
    if m.delay.toNat ≤ elapsedCount s.clock capture then s.sceneTakesEffect (keptScene m)
    else s.holdScene (keptScene m) (.atDelay (capture + m.delay))

/-- The acceptance of a SCENE: clamped, counted once where that changed a field, and switched in (R60 to R65). One that
is not well formed counts BADFRAME and changes nothing else (R60, R179). -/
def State.acceptScene (capture : Pos) (m : SceneMsg) (s : State) : State :=
  if m.wellFormed then (if sceneClamped m then s.bump .clamp else s).switchScene capture m
  else s.bump .badFrame

/-- A pending AT_DELAY scene takes effect where the stage clock has reached its due point (R66). -/
def State.takeDueScene (s : State) : State :=
  match s.scenes.pending with
  | some p =>
    match p.condition with
    | .atDelay due => if due = s.clock then s.sceneTakesEffect p.scene else s
    | .atRest => s
  | none => s

/-- A pending AT_REST scene takes effect at a decision whose follower state is REST (R64). -/
def State.takeRestScene (s : State) : State :=
  match s.scenes.pending, s.follower with
  | some p, .rest =>
    match p.condition with
    | .atRest => s.sceneTakesEffect p.scene
    | .atDelay _ => s
  | _, _ => s

end Sys2Proof.Machine
end

