-- ==== Sys2Proof/Machine/AllocOps.lean ====
section
/-! DEFINITION. Machine/AllocOps.lean: the voice allocator's decision and its claim records (chapter 07). -/

namespace Sys2Proof.Machine

/-! ### The passes -/

/-- The voices during the passes, the notes kept or assigned so far, and how many voices began waiting (R113 to R116).
-/
structure Passes where
  voices : Quad VoiceAlloc
  taken : List Nat
  parks : Nat
deriving DecidableEq, Repr

/-- The candidate list of voice v for held note h (R79). -/
def State.candidatesFor (s : State) (h : Nat) (v : Voice) : List Nat := candidates s.scenes.active (s.rule v) h

/-- Whether note t clashes for a voice of this age (R107). -/
def State.noteClashes (s : State) (taken : List Nat) (age t : Nat) : Bool :=
  clashes s.straps.id s.map s.scenes.active.rubs taken age t

/-- Whether the hold pass keeps voice v on its target t (R113). -/
def State.keepsVoice (s : State) (h : Nat) (taken : List Nat) (v : Voice) (age t : Nat) : Bool :=
  !s.ruleOff v && (s.candidatesFor h v).any (fun n => decide (n = t)) && !s.noteClashes taken age t

/-- The hold pass on one voice (R113). -/
def State.holdVoice (s : State) (h : Nat) (v : Voice) (p : Passes) : Passes :=
  let a := p.voices.get v
  match s.enabled v, a.target with
  | true, some t =>
    if s.keepsVoice h p.taken v a.age t then
      { p with
        voices := p.voices.set v { a with age := satSucc Config.maxAge a.age, doubled := false, unplaced := false }
        taken := t :: p.taken }
    else { p with voices := p.voices.set v { a with target := none, age := 0, doubled := false } }
  | _, _ => p

/-- A voice given a target in the assign pass (R114, R115). -/
def Passes.give (v : Voice) (t : Nat) (doubled : Bool) (p : Passes) : Passes :=
  { p with
    voices := p.voices.set v
      { p.voices.get v with target := some t, age := 0, doubled := doubled, unplaced := false }
    taken := t :: p.taken }

/-- A voice left without a target, PARK counted where it begins to wait (R116). -/
def Passes.unplace (v : Voice) (p : Passes) : Passes :=
  { p with
    voices := p.voices.set v { p.voices.get v with age := 0, doubled := false, unplaced := true }
    parks := if (p.voices.get v).unplaced then p.parks else p.parks + 1 }

/-- The assign pass on one voice (R114, R115, R116). -/
def State.assignVoice (s : State) (h : Nat) (v : Voice) (p : Passes) : Passes :=
  let a := p.voices.get v
  if !s.enabled v || a.target.isSome then p
  else if s.ruleOff v then
    { p with voices := p.voices.set v { a with age := 0, doubled := false, unplaced := false } }
  else
    match (s.candidatesFor h v).find? fun t => !s.noteClashes p.taken 0 t with
    | some t => p.give v t false
    | none =>
      match s.candidatesFor h v with
      | primary :: _ =>
        if (s.rule v).doubling && !p.taken.any (fun n => decide (n = primary)) then p.give v primary true
        else p.unplace v
      | [] => p.unplace v

/-- Both passes, each over voices 0 to 3 (R113, R114). -/
def State.runPasses (s : State) (h : Nat) : Passes :=
  let held := Voice.all.foldl (fun p v => s.holdVoice h v p) { voices := s.alloc.voices, taken := [], parks := 0 }
  Voice.all.foldl (fun p v => s.assignVoice h v p) held

/-! ### Posting -/

/-- The glide a target posting advances: one in progress on the same note, or one that begins because a SOUNDING or
GLIDING voice has a new note and G is 1 or more (R84, R85, R86). -/
def glideFor (c : Channel) (length : Nat) (before : Option Nat) (t new : Nat) (g : Option Glide) : Option Glide :=
  if c.state = .sounding ∨ c.state = .gliding then
    if before = some t then g
    else if 1 ≤ length then some { origin := c.stepInForce.getD new, length := length, position := 0 }
    else none
  else none

/-- A target posted with its step: plain, or the glide step (R83, R84, R85, R117). -/
def State.postVoiceTarget (h liveP : Nat) (before : Option Nat) (v : Voice) (t : Nat) (s : State) : State :=
  let a := s.voice v
  let new := stepFor s.npt (s.rule v).intonation h liveP t
  match glideFor (s.channel v) s.scenes.active.glide before t new a.glide with
  | some g =>
    let stepped := advanceGlide g new
    (s.setVoice v { a with postedStep := some stepped.1, glide := stepped.2 }).postTarget v stepped.2.isSome
  | none => (s.setVoice v { a with postedStep := some new, glide := none }).postTarget v false

/-- "No target" posted: no posted step and no glide record (R83, R86, R117). -/
def State.postVoiceNone (v : Voice) (s : State) : State :=
  (s.setVoice v { s.voice v with postedStep := none, glide := none }).postNoTarget v

/-- What a decision posts for voice v; a disabled voice is posted nothing (R117). -/
def State.postVoice (held : Option (Nat × Nat)) (before : Quad VoiceAlloc) (v : Voice) (s : State) : State :=
  if s.enabled v then
    match (s.voice v).target, held with
    | some t, some (h, p) => s.postVoiceTarget h p (before.get v).target v t
    | _, _ => s.postVoiceNone v
  else s

/-! ### Claim records -/

/-- The record's entry of a voice with a target (R119). -/
def claimEntry (voices : Quad VoiceAlloc) (v : Voice) : Option ClaimEntry :=
  (voices.get v).target.map fun t =>
    { voice := v, note := t, age := (voices.get v).age, doubled := (voices.get v).doubled }

/-- The own claim record (R119). -/
def buildRecord (live : Option Nat) (voices : Quad VoiceAlloc) : ClaimRecord :=
  { live := live, entries := Voice.all.filterMap (claimEntry voices) }

/-- What R120 compares of an entry: everything but its age. -/
def ClaimEntry.content (e : ClaimEntry) : Voice × Nat × Bool := (e.voice, e.note, e.doubled)

/-- Whether a record is changed with respect to the last-sent record (R120). -/
def recordChanged (lastSent : Option ClaimRecord) (r : ClaimRecord) : Bool :=
  match lastSent with
  | none => true
  | some l => decide (l.live ≠ r.live) || decide (l.entries.map ClaimEntry.content ≠ r.entries.map ClaimEntry.content)

/-- The minimum interval in decisions: 2 at a bit time of 1 µs, 8 at 4 µs (R121). -/
def minimumInterval (rate : BitVec 1) : Nat := if rate = 0#1 then 2 else 8

/-- A record becomes the own claim record (R119). -/
def State.keepRecord (r : ClaimRecord) (s : State) : State := { s with alloc := { s.alloc with record := r } }

/-- The own claim record is placed in the CLAIM slot (R121, R123, R124, R125). -/
def State.placeRecord (s : State) : State :=
  { s with line := s.line.placeClaim s.alloc.record, alloc := { s.alloc with sincePlacement := 0 } }

/-- Whether the sending test places the record (R121). -/
def State.sendDue (s : State) : Bool :=
  (recordChanged s.alloc.lastSent s.alloc.record || decide (Config.refreshDecisions ≤ s.alloc.sinceSend)) &&
    decide (minimumInterval s.straps.rate ≤ s.alloc.sincePlacement)

/-- The sending test (R121). -/
def State.sendTest (s : State) : State := if s.sendDue then s.placeRecord else s

/-! ### The decision -/

/-- Step 4: both counts of decisions rise to their limits (R111). -/
def State.countDecision (s : State) : State :=
  { s with alloc := { s.alloc with
      sinceSend := satSucc Config.refreshDecisions s.alloc.sinceSend
      sincePlacement := satSucc Config.placementLimit s.alloc.sincePlacement } }

/-- The held note and live P for which the decision allocates, none in REST, ARMING and bypass (R112). -/
def State.allocationBase (s : State) : Option (Nat × Nat) :=
  if s.scenes.bypass then none else s.follower.heldWithLive

/-- Step 5: the passes, or every target removed (R112 to R116). -/
def State.allocate (s : State) : State :=
  match s.allocationBase with
  | some (h, _) =>
    let p := s.runPasses h
    State.bumpTimes .park p.parks { s with alloc := { s.alloc with voices := p.voices } }
  | none => { s with alloc := { s.alloc with voices := Quad.const clearedVoice } }

/-- Step 6: targets and steps posted to the renderer, voice by voice (R117). -/
def State.postAll (before : Quad VoiceAlloc) (s : State) : State :=
  s.forVoices (State.postVoice s.allocationBase before)

/-- Step 7: the own claim record of a decision (R119). -/
def State.recordDecision (s : State) : State := s.keepRecord (buildRecord s.follower.heldNote s.alloc.voices)

/-- The decision that belongs to a result (R111). -/
def State.takeDecision (r : Reason) (s : State) : State :=
  let s1 := ({ s with follower := followerStep r s.follower } : State).updateMap.takeRestScene.countDecision
  (s1.allocate.postAll s1.alloc.voices).recordDecision.sendTest

/-! ### Between decisions -/

/-- Every voice's target removed, with ages, flags, posted steps and glides (R112, R124). -/
def State.clearTargets (s : State) : State := { s with alloc := { s.alloc with voices := Quad.const clearedVoice } }

/-- Bypass-on: the flag set, every target removed and posted away, and a voiceless record placed at once (R69, R118,
R123). -/
def State.bypassOn (s : State) : State :=
  let s1 := ({ s with scenes := { s.scenes with bypass := true } } : State).clearTargets
  ((s1.forVoices fun v s => if s.enabled v then s.postNoTarget v else s).keepRecord
    { live := s.follower.heldNote, entries := [] }).placeRecord

/-- A CONTROL with BYPASS_ON; with the flag already set it is no change of bypass (R68, R69). -/
def State.acceptBypassOn (s : State) : State := if s.scenes.bypass then s else s.bypassOn

/-- A CONTROL with BYPASS_OFF clears the flag (R68, R69). -/
def State.acceptBypassOff (s : State) : State := { s with scenes := { s.scenes with bypass := false } }

/-- The allocator at a hush or a loss of audio: targets removed, an empty record placed at once (R124, R125). -/
def State.withdrawClaims (s : State) : State := (s.clearTargets.keepRecord emptyRecord).placeRecord

/-- The acceptance of a CLAIM at the claim queue: one of another sender is queued, merged or dropped (R93, R94, R95);
one that is not well formed counts BADFRAME (R178). -/
def State.acceptClaim (m : ClaimMsg) (s : State) : State :=
  if !m.wellFormed then s.bump .badFrame
  else if m.sender = s.straps.id then s
  else
    match offerClaim s.claimQueue m with
    | some q => { s with claimQueue := q }
    | none => s.bump .inboxDrop

/-- The acceptance of a QUERY addressed to this station (R180). -/
def State.acceptQuery (clear : Bool) (s : State) : State := s.setLine (s.line.placeReport clear)

/-- The acceptance of a routed frame by its block (R166). -/
def State.acceptFrame (a : Accepted) (s : State) : State :=
  match a with
  | .claim m => s.acceptClaim m
  | .scene capture m => s.acceptScene capture m
  | .bypassOn => s.acceptBypassOn
  | .bypassOff => s.acceptBypassOff
  | .query clear => s.acceptQuery clear

end Sys2Proof.Machine
end

