-- ==== Sys2Proof/Machine/AudioOps.lean ====
section
/-! DEFINITION. Machine/AudioOps.lean: frame syncs, edges of ABCLK, sample arrivals, the loss of audio and the hush
(chapter 01 and the station-wide events). -/

namespace Sys2Proof.Machine

/-! ### Frame sync -/

/-- The dry sample of an output frame: the sample 768 positions behind, or zero while fewer are fresh (R12). -/
def drySample (ring : Cells Sample) (fresh : Nat) (position : Pos) : Int :=
  if Config.dryDelay ≤ fresh then (readRing ring (position - BitVec.ofNat 24 Config.dryDelay)).toInt else 0

/-- The eight slot values of an output frame (R3). -/
def frameSlots (dry : Int) (m : Mixer) : List Int := dry :: m.voices.toList ++ [m.left, m.right, 0]

/-- The output frame that a frame sync opens (R3). -/
def State.openedFrame (s : State) : OutFrame :=
  { position := s.clock, slots := frameSlots (drySample s.ring s.audio.fresh s.clock) s.mixer, driven := 0 }

/-- An audio return: audio PRESENT, the fresh count 0, the tracker in WARMING (R14, R18). -/
def State.audioReturn (s : State) : State :=
  match s.audio.state with
  | .absent => { s with audio := { s.audio with state := .present, fresh := 0 }, tracker := .warming }
  | .present => s

/-- A frame sync restarts the loss timer, discards a partial sample, begins slot 0 and opens an output frame; AFSYNC is
high at it; while audio is ABSENT it is an audio return (R1, R2, R3, R13, R14). DESIGN CHOICE (log 29): the input sample
register becomes 0 also where it holds a complete sample, of which R2 does not say whether it stays past the next frame
sync. -/
def State.takeFrameSync (s : State) : State :=
  let s1 := s.audioReturn
  { s1 with audio := { s1.audio with
      syncHigh := true, inputReg := 0, inputBits := some 0, lossTimer := some 0, out := some s1.openedFrame } }

/-! ### Edges of ABCLK -/

/-- A falling edge moves an output frame on by one bit, up to its 256th; past that ADOUT is low (R3, R4). -/
def OutFrame.driveNext (f : OutFrame) : OutFrame := { f with driven := satSucc Config.frameBits f.driven }

/-- A falling edge of ABCLK that is no frame sync: AFSYNC is sampled and the next output bit is driven (R1, R3). -/
def AudioPort.passFall (afsync : Bool) (a : AudioPort) : AudioPort :=
  { a with syncHigh := afsync, out := a.out.map OutFrame.driveNext }

/-- A sample with one more bit shifted in at its lower end, so that the first of 24 comes out most significant (R1). The
places of the bits of a partial sample are a DESIGN CHOICE (log 7). -/
def shiftIn (x : Sample) (adin : Bool) : Sample := (x <<< 1) ||| (BitVec.ofBool adin).setWidth 24

/-- A rising edge of ABCLK within the first 23 bits of slot 0, where k of them have been taken (R1). -/
def AudioPort.takeBit (k : Nat) (adin : Bool) (a : AudioPort) : AudioPort :=
  { a with inputReg := shiftIn a.inputReg adin, inputBits := some (k + 1) }

/-! ### Sample arrival -/

/-- The capture port's three parts of a sample arrival, with the register holding the whole sample (R1, R8, R9, R11).
-/
def State.captureSample (x : Sample) (s : State) : State :=
  { s with
    ring := writeRing s.ring s.clock x
    clock := s.clock + 1
    audio := { s.audio with
      inputReg := x, inputBits := some Config.sampleBits, fresh := satSucc Config.ringSize s.audio.fresh } }

/-- Whether a cover end lies more than 36,864 sixteenths behind the newest sample (R36). -/
def coverTooOld (clock : Pos) : Option Pos16 → Bool
  | none => false
  | some c => tooOld clock c

/-- Old marks leave the list at a sample arrival, in every tracker state but ABSENT (R39), and a cover end that has
fallen too far behind is remembered as such (R36; log 32). -/
def State.trimMarks (s : State) : State :=
  let trimmed := { s with
    marks := removeOldMarks s.clock s.marks, coverFar := s.coverFar || coverTooOld s.clock s.coverEnd }
  match s.tracker with
  | .absent => s
  | .warming => trimmed
  | .waiting => trimmed
  | .analysing _ => trimmed

/-! ### Loss of audio -/

/-- The capture port at a loss of audio (R14). -/
def AudioPort.lose (a : AudioPort) : AudioPort :=
  { a with state := .absent, inputReg := 0, inputBits := none, lossTimer := none, out := none }

/-- A loss of audio, at every block (R14, R33, R51, R71, R104, R125, R146, R157). -/
def State.loseAudio (s : State) : State :=
  (({ s with audio := s.audio.lose, tracker := .absent, follower := .rest } :
    State).emptyMarks.silenceRenderer).withdrawClaims

/-! ### Hush -/

/-- The line controller's part of a hush: BREAK, last-sender the own id, the collision count 0 (R164, R174). That the
frame in hand is emptied is the model's choice (log 33). -/
def LineControl.breakLine (own : StationId) (l : LineControl) : LineControl :=
  { l with
    receiver := .breaking
    rx := .space
    spaceRun := Config.breakRun
    idle := 0
    lastSender := own
    collisions := 0
    collisionSlot := none
    frameInHand := none
    echo := [] }

/-- The tracker, follower, scene holder and stage map at a hush (R32, R50, R70, R103). -/
def State.hushListeners (s : State) : State :=
  { s.abandonAnalysis.emptyMarks with
    follower := .rest
    scenes := { s.scenes with pending := none }
    claimQueue := []
    map := [] }

/-- A hush, at every block (R164, R174, R32, R50, R70, R103, R124, R145, R157). A send that the break has overtaken has
ended as a collision before it (R174). -/
def State.takeHush (s : State) : State :=
  let s1 := s.endSendForBreak.bump .hush
  let s2 := ((s1.setLine (s1.line.breakLine s1.straps.id)).hushListeners.hushRenderer).withdrawClaims
  s2.setLine s2.line.settleTransmitter

end Sys2Proof.Machine
end

