-- ==== Sys2Proof/Machine/OwedOps.lean ====
section
/-! DEFINITION. Machine/OwedOps.lean: the steps of the table that come about with a sample arrival or a frame boundary
and are taken as commands of their own. They belong to that arrival or boundary: any other command finds them taken, in
the order of the list where the sender has not named them (log 1). With them what passes in a bit time: the edges of
ABCLK, the loss timer and the line (logs 4, 28, 35). -/

namespace Sys2Proof.Machine

/-- A step's effect; each finds for itself whether its condition still holds. -/
def State.perform (o : Owed) (s : State) : State :=
  match o with
  | .leaveWarming => s.leaveWarming
  | .analysisTick => s.takeTick
  | .windowOverwrite => s.overwriteWindow
  | .sceneDuePoint => s.takeDueScene
  | .fetchWithdrawal v => s.withdrawOverwritten v
  | .placementPointDue v => s.placementPointDue v
  | .grainDrop v => s.dropGrain v
  | .enteringRampFull v => s.rampFull v
  | .cycleStop v => s.stopCycle v
  | .accept a => s.acceptFrame a

/-- Each step of the list is taken in turn, the later ones still owed meanwhile. -/
def settleOwed : List Owed → State → State
  | [], s => s
  | o :: rest, s => settleOwed rest (State.perform o { s with owed := rest })

/-- Every owed step is taken, in the list's order (log 1). -/
def State.settle (s : State) : State := settleOwed s.owed s

/-- An owed step taken by its command; a step that has not come about changes nothing (log 2). -/
def State.takeOwed (o : Owed) (s : State) : State :=
  if o ∈ s.owed then State.perform o { s with owed := s.owed.erase o } else s

/-- A condition's step, where it holds. -/
def owedIf (b : Bool) (o : Owed) : List Owed := if b then [o] else []

/-- WARMING is over (R18). -/
def State.warmingOver (s : State) : Bool :=
  match s.tracker with
  | .warming => decide (Config.windowSize ≤ s.audio.fresh)
  | _ => false

/-- The window in flight is overwritten (R34). -/
def State.windowLost (s : State) : Bool :=
  match s.tracker with
  | .analysing a => windowOverwritten s.clock a
  | _ => false

/-- The channel's FETCH has lost its oldest sample (R135). -/
def State.fetchLost (s : State) (v : Voice) : Bool :=
  match (s.channel v).next with
  | .fetching m => grainOverwritten s.clock m
  | _ => false

/-- The channel's placement point is due (R137). -/
def State.placementReached (s : State) (v : Voice) : Bool :=
  match (s.channel v).placementPoint with
  | some p => isDue s.clock p
  | none => false

/-- A PLACE of the voice is overdue, waiting or running (R142). -/
def State.grainLate (s : State) (v : Voice) : Bool :=
  (s.arbiter.list.any (Job.overdue s.clock v)) || s.arbiter.running.any (Running.overdue s.clock v)

/-- An ENTERING voice's ramp is full (R139). -/
def State.rampIsFull (s : State) (v : Voice) : Bool :=
  decide ((s.channel v).state = .entering) && decide ((s.channel v).ramp = Config.fullRamp)

/-- A LEAVING voice's ramp is at 0 (R144). -/
def State.rampIsOut (s : State) (v : Voice) : Bool :=
  decide ((s.channel v).state = .leaving) && decide ((s.channel v).ramp = 0)

/-- A pending AT_DELAY scene is due (R66). -/
def State.sceneIsDue (s : State) : Bool :=
  match s.scenes.pending with
  | some p => decide (p.condition = .atDelay s.clock)
  | none => false

/-- The stage clock stands at a multiple of 256 (R10). -/
def tickFalls (clock : Pos) : Bool := decide (clock.toNat % Config.tickSpacing = 0)

/-- The steps of one channel that come about with a due position (R128 step 4, R139). -/
def State.owedByChannel (s : State) (v : Voice) : List Owed :=
  owedIf (s.placementReached v) (.placementPointDue v) ++ owedIf (s.grainLate v) (.grainDrop v) ++
    owedIf (s.rampIsFull v) (.enteringRampFull v) ++ owedIf (s.rampIsOut v) (.cycleStop v)

/-- The steps that come about with a sample arrival (R10, R18, R34, R66, R128, R135, R139, R142, R144). -/
def State.owedAtArrival (s : State) : List Owed :=
  owedIf s.warmingOver .leaveWarming ++ owedIf s.windowLost .windowOverwrite ++
    Voice.all.flatMap (fun v => owedIf (s.fetchLost v) (.fetchWithdrawal v)) ++
    Voice.all.flatMap s.owedByChannel ++
    owedIf s.sceneIsDue .sceneDuePoint ++ owedIf (tickFalls s.clock) .analysisTick

/-- A sample arrival with audio PRESENT: the capture, the marks that leave, the due position, and the steps that come
about with it (R1, R39, R128); while audio is ABSENT no sample arrives (R9). -/
def State.takeSample (x : Sample) (s : State) : State :=
  match s.audio.state with
  | .absent => s
  | .present =>
    let s1 := (s.captureSample x).trimMarks.positionDue
    { s1 with owed := s1.owedAtArrival }

/-- A falling edge of ABCLK: a frame sync where AFSYNC is high after it was low at the previous falling edge (R1, R3).
-/
def State.takeFall (afsync : Bool) (s : State) : State :=
  if afsync && !s.audio.syncHigh then s.takeFrameSync else { s with audio := s.audio.passFall afsync }

/-- A rising edge of ABCLK: a bit of slot 0, most significant first; the 24th is the sample arrival, and the bits after
it are ignored until the next frame sync, as are all bits before the first one (R1, R2). -/
def State.takeRise (adin : Bool) (s : State) : State :=
  match s.audio.inputBits with
  | none => s
  | some k =>
    if k + 1 < Config.sampleBits then { s with audio := s.audio.takeBit k adin }
    else if k + 1 = Config.sampleBits then s.takeSample (shiftIn s.audio.inputReg adin)
    else s

/-- An edge of ABCLK. -/
def State.takeEdge (e : AudioEdge) (s : State) : State :=
  match e with
  | .fall afsync => s.takeFall afsync
  | .rise adin => s.takeRise adin

/-- Edges of ABCLK in their order, each with every earlier arrival's steps taken (log 1). -/
def passEdges : List AudioEdge → State → State
  | [], s => s
  | e :: rest, s => passEdges rest (State.takeEdge e s).settle

/-- The capture port's and the output port's part of a bit time: the edges of ABCLK that the outside gives it (log 35).
-/
def State.passAudio (s : State) : State := passEdges (s.audioIn.headD []) { s with audioIn := s.audioIn.tail }

/-- The tick is taken; where the same arrival has ended WARMING, the tracker leaves WARMING first (R18). -/
def State.takeOwedTick (s : State) : State :=
  if .analysisTick ∈ s.owed then (s.takeOwed .leaveWarming).takeOwed .analysisTick else s

/-- The acceptance of a frame: of the one the receiver has just routed, or of one brought by the command alone (log
14). -/
def State.takeAccepted (a : Accepted) (s : State) : State :=
  if Owed.accept a ∈ s.owed then s.takeOwed (.accept a) else s.settle.acceptFrame a

/-! ### Completions -/

/-- The unit becomes FREE at a completion and grants the next job, after the owner has handled it (R151, R152). -/
def State.finishJob (s : State) : State := ({ s with arbiter := { s.arbiter with running := none } } : State).grant

/-- What an analysis completion leads to: the tracker's part, then the decision (R30, R111). -/
def State.completeAnalysis (r : ResultRecord) (s : State) : State := (s.writeResult r).takeDecision r.reason

/-- A segment's completion at the tracker: one whose tick is not that of the analysis in flight is discarded (R21). -/
def State.segmentDone (tick : Pos) (s : State) : State :=
  match s.tracker with
  | .analysing a =>
    if a.tick = tick then
      match runSegment s.npt (analysisWindow s.ring a.tick) a with
      | .goesOn a' => ({ s with tracker := .analysing a' } : State).request (.analysis tick a'.segment)
      | .ends r => s.completeAnalysis r
    else s
  | _ => s

/-- The completion of the running job, where it is an ANALYSIS segment; a withdrawn one is discarded (R21, R152, R153).
-/
def State.completeSegment (s : State) : State :=
  match s.arbiter.running with
  | some { job := .analysis tick _, fate := f } => (if f = .live then s.segmentDone tick else s).finishJob
  | _ => s

/-- The completion of the running job, where it is a FETCH (R135, R136, R152, R153). -/
def State.completeFetch (s : State) : State :=
  match s.arbiter.running with
  | some { job := .fetch o p m, fate := f } => (if f = .live then s.fetchDone o p m else s).finishJob
  | _ => s

/-- The completion of the running job, where it is a PLACE (R138, R152, R153). -/
def State.completePlace (s : State) : State :=
  match s.arbiter.running with
  | some { job := .place v g mark, fate := f } => (s.placeDone v g mark f).finishJob
  | _ => s

/-! ### The line's time -/

/-- A start bit found in READY begins a frame (R161, R168). DESIGN CHOICE (log 37): it is taken whatever level the line
stands at. -/
def State.takeFrameStart (s : State) : State :=
  match s.line.receiver with
  | .ready => s.setLine { s.line.startBit with
      receiver := .receiving [] s.clock (decide (s.line.transmitter = .sending)) }
  | _ => s

/-- A start bit found while the receiver is not READY (R159, R161). In BREAK the line is at space and none can come.
DESIGN CHOICE (log 37): elsewhere it is taken whatever level the line stands at. -/
def State.takeStartBit (s : State) : State :=
  match s.line.receiver with
  | .ready => s
  | .breaking => s
  | .gapWait => s.setLine s.line.startBit
  | .receiving _ _ _ => s.setLine s.line.startBit
  | .skippingGroup _ => s.setLine s.line.startBit
  | .skippingError => s.setLine s.line.startBit

/-- The idle time's way to the gap passes the frame boundary, where the receiver has not reached READY yet (R159, R170).
-/
def State.passBoundary (s : State) : State := if s.line.receiver = .ready then s else s.takeBoundary.settle

/-- The idle time reaches the transmitter's gap, in DEFERRING or BACKOFF. It gathers at mark alone: inside a character
of a frame in reception the start bit has come first and the transmitter defers, and a break holds the line at space
(R159, R161, R170; logs 2, 18). -/
def State.takeSendStart (s : State) : State :=
  match s.line.gap s.straps.id with
  | none => s
  | some _ =>
    if s.line.mayIdle then
      let s1 := s.passBoundary
      let reached := max s1.line.idle ((s1.line.gap s1.straps.id).getD 0)
      (s1.setLine { s1.line with idle := min Config.maxIdle reached }).beginSend
    else s

/-- The echo check of the character just sent, in SENDING (R171). DESIGN CHOICE (log 37): it is taken whatever number of
levels the detector has heard. -/
def State.takeEcho (heard : Option Byte) (s : State) : State :=
  match s.line.transmitter, s.line.frameInHand with
  | .sending, some f => s.checkEcho heard f
  | _, _ => s

/-- A break: one raises one hush (R164). -/
def State.takeBreak (s : State) : State := if s.line.receiver = .breaking then s else s.takeHush

/-- The loss timer's expiry, while audio is PRESENT (R13). -/
def State.takeLoss (s : State) : State :=
  match s.audio.state with
  | .present => s.loseAudio
  | .absent => s

/-- One bit time of the loss timer (R13). -/
def State.passTimer (s : State) : State :=
  match s.audio.lossTimer with
  | none => s
  | some n =>
    let n' := n + bitPeriods s.straps.rate
    if Config.lossLimit ≤ n' then s.takeLoss
    else { s with audio := { s.audio with lossTimer := some n' } }

/-- The transmitter's gap test at a bit-time boundary (R170). -/
def State.gapTest (s : State) : State :=
  match s.line.gap s.straps.id with
  | some g => if g ≤ s.line.idle then s.beginSend else s
  | none => s

/-- One bit time of idle line: the frame boundary at 12, then the gap test (R159, R166, R170). -/
def State.passIdle (s : State) : State :=
  let idle' := satSucc Config.maxIdle s.line.idle
  let s1 := s.setLine { s.line with idle := idle' }
  (if idle' = Config.boundaryIdle then s1.takeBoundary.settle else s1).gapTest

/-- The level of LINE_RX at the middle of this bit time: the one that the outside gives; where it gives none, the own
LINE_TX while LINE_DE is high, else the level at which the line stands. None inside a character whose bits the outside
does not give (log 28). -/
def State.lineLevel (s : State) : Option Bool :=
  match s.lineIn with
  | b :: _ => some b
  | [] =>
    if s.line.de then some s.line.tx
    else
      match s.line.rx with
      | .mark => some true
      | .space => some false
      | .character _ => none

/-- The transmitter's own detector hears one level; with the tenth it compares (R158, R171). -/
def State.hearBit (level : Bool) (s : State) : State :=
  if s.line.de then
    if s.line.echo.length < 9 then s.setLine { s.line with echo := s.line.echo ++ [level] }
    else s.takeEcho (heardChar (s.line.echo ++ [level]))
  else s

/-- A change from mark to space is a start bit, in READY that of a frame (R158, R161). -/
def State.findStartBit (s : State) : State := if s.line.receiver = .ready then s.takeFrameStart else s.takeStartBit

/-- The receiver samples one level: a data bit of the character, its stop bit, a bit time of idle, a start bit, or the
return to mark after a space (R158, R159, R163). -/
def State.receiveBit (level : Bool) (s : State) : State :=
  match s.line.rx, level with
  | .mark, true => s.passIdle
  | .mark, false => s.findStartBit
  | .character bits, b =>
    if bits.length < 8 then s.setLine { s.line with rx := .character (bits ++ [b]) }
    else if b then s.takeChar (charOf bits)
    else s.setLine { s.line with rx := .space }
  | .space, true => s.takeReturnToMark.passIdle
  | .space, false => s

/-- The space run counts the bit times of continuous space, up to a break's 40 (R161). -/
def LineControl.countSpace (level : Bool) (l : LineControl) : LineControl :=
  { l with spaceRun := if level then 0 else satSucc Config.breakRun l.spaceRun }

/-- A space run of 40 bit times is a break (R161, R164). -/
def State.breakTest (s : State) : State := if Config.breakRun ≤ s.line.spaceRun then s.takeBreak else s

/-- One bit time of the line at this level (R158, R161, R163, R171). -/
def State.lineBit (level : Bool) (s : State) : State :=
  let s1 := s.hearBit level
  ((s1.setLine (s1.line.countSpace level)).receiveBit level).breakTest

/-- The line's part of a bit time. -/
def State.passLine (s : State) : State :=
  match s.lineLevel with
  | some level => State.lineBit level { s with lineIn := s.lineIn.tail }
  | none => s

/-- One bit time of the line oscillator, which is what a step on an empty queue lets pass: the edges of ABCLK in it,
then the loss timer, then the line (logs 4, 35). -/
def State.passBitTime (s : State) : State := if s.resetN then s.settle.passAudio.passTimer.passLine else s

end Sys2Proof.Machine
end

