-- ==== Sys2Proof/Machine/Flags.lean ====
section
/-! DEFINITION. Machine/Flags.lean: the output pins, each computed from the state it follows. -/

namespace Sys2Proof.Machine

/-- FAULT is high while audio is ABSENT or the clash flag is set (R15); while RESET_N is low audio is ABSENT. -/
def State.faultPin (s : State) : Bool := decide (s.audio.state = .absent) || s.line.clash

/-- VOICE_ACTn is high while voice n is ENTERING, SOUNDING or GLIDING (R16). -/
def VoiceState.sounds : VoiceState → Bool
  | .off => false
  | .parked => false
  | .entering => true
  | .sounding => true
  | .gliding => true
  | .leaving => false

/-- The level of VOICE_ACTn (R16). -/
def State.voiceAct (s : State) (v : Voice) : Bool := (s.channel v).state.sounds

/-- The level of LINE_DE (R169). -/
def State.lineDE (s : State) : Bool := s.line.de

/-- The level of LINE_TX, mark being true: the bits of the character being sent, and mark at rest (R158, R171). -/
def State.lineTx (s : State) : Bool := s.line.tx

/-- The level of ADOUT at bit k of an output frame: slot k / 32, its 24 bits most significant first, then eight zeros;
low after the 256th bit (R3, R4). -/
def OutFrame.bit (f : OutFrame) (k : Nat) : Bool :=
  if k % 32 < 24 then (BitVec.ofInt 24 (f.slots.getD (k / 32) 0)).getLsbD (23 - k % 32) else false

/-- The level of ADOUT: the bit at which the output frame stands; low outside any output frame (R3, R4). -/
def State.adout (s : State) : Bool :=
  match s.audio.out with
  | some f => f.bit f.driven
  | none => false

end Sys2Proof.Machine
end

