-- ==== Sys2Proof/Machine/AudioCommands.lean ====
section
/-! DEFINITION. Machine/AudioCommands.lean: the meanings of the reset, audio port and stage clock commands. Every
command but the steps of one arrival or boundary finds those steps taken first (log 1). -/

namespace Sys2Proof.Machine

/-- RESET_ASSERT: the falling edge of RESET_N abandons all work and holds every block at its reset value; the latch and
the period table keep what nothing reads (R6; log 6). -/
def execResetAssert (s : State) : Host.Outcome State Fault Refusal :=
  .next { State.released s.straps true s.audioIn s.lineIn s.pending with resetN := false, npt := s.npt }

/-- RESET_RELEASE: the rising edge of RESET_N latches the straps, the period table is built, and every block begins from
its reset values (R5, R6, R40, R160). -/
def execResetRelease (pins : StrapPins) (lineAtMark : Bool) (s : State) : Host.Outcome State Fault Refusal :=
  .next (State.released pins lineAtMark s.audioIn s.lineIn s.pending)

/-- FRAME_SYNC (R1, R2, R3, R12, R13, R14). -/
def execFrameSync (s : State) : Host.Outcome State Fault Refusal := whenReleased (fun s => s.settle.takeFrameSync) s

/-- SAMPLE_ARRIVAL (R1, R8, R9, R11, R39, R128, R139). -/
def execSampleArrival (sample : Sample) (s : State) : Host.Outcome State Fault Refusal :=
  whenReleased (fun s => s.settle.takeSample sample) s

/-- LOSS_OF_AUDIO (R13, R14). -/
def execLossOfAudio (s : State) : Host.Outcome State Fault Refusal := whenReleased (fun s => s.settle.takeLoss) s

/-- ANALYSIS_TICK (R10, R19, R20). -/
def execAnalysisTick (s : State) : Host.Outcome State Fault Refusal := whenReleased (fun s => s.takeOwedTick) s

/-- LEAVE_WARMING (R18). -/
def execLeaveWarming (s : State) : Host.Outcome State Fault Refusal :=
  whenReleased (fun s => s.takeOwed .leaveWarming) s

/-- WINDOW_OVERWRITE (R34). -/
def execWindowOverwrite (s : State) : Host.Outcome State Fault Refusal :=
  whenReleased (fun s => s.takeOwed .windowOverwrite) s

/-- SEGMENT_COMPLETION (R21 to R30, R111). -/
def execSegmentCompletion (s : State) : Host.Outcome State Fault Refusal :=
  whenReleased (fun s => s.settle.completeSegment) s

/-- PEER_ENTRY_EXPIRY (R102). A decision removes its expired entries itself, before its voices are allocated (R111; log
8). -/
def execPeerEntryExpiry (s : State) : Host.Outcome State Fault Refusal :=
  whenReleased (fun s => s.settle.expireEntries) s

/-- SCENE_DUE_POINT (R66). -/
def execSceneDuePoint (s : State) : Host.Outcome State Fault Refusal :=
  whenReleased (fun s => s.takeOwed .sceneDuePoint) s

end Sys2Proof.Machine
end

