-- ==== Sys2Proof/Machine/LineCommands.lean ====
section
/-! DEFINITION. Machine/LineCommands.lean: the meanings of the stage line's commands, character by character and by
accepted frame. -/

namespace Sys2Proof.Machine

/-- FRAME_START (R9, R161). -/
def execFrameStart (s : State) : Host.Outcome State Fault Refusal := whenReleased (fun s => s.settle.takeFrameStart) s

/-- CHARACTER_RECEIVED (R158, R162, R165). -/
def execCharacterReceived (char : Byte) (s : State) : Host.Outcome State Fault Refusal :=
  whenReleased (fun s => s.settle.takeChar char) s

/-- LINE_RETURN_TO_MARK (R163). -/
def execLineReturnToMark (s : State) : Host.Outcome State Fault Refusal :=
  whenReleased (fun s => s.settle.takeReturnToMark) s

/-- FRAME_BOUNDARY (R161, R165, R166, R167, R168). -/
def execFrameBoundary (s : State) : Host.Outcome State Fault Refusal := whenReleased (fun s => s.settle.takeBoundary) s

/-- CLAIM (R93, R94, R95). -/
def execClaim (msg : ClaimMsg) (s : State) : Host.Outcome State Fault Refusal :=
  whenReleased (fun s => s.takeAccepted (.claim msg)) s

/-- SCENE (R60 to R65, R67). -/
def execScene (capture : Pos) (msg : SceneMsg) (s : State) : Host.Outcome State Fault Refusal :=
  whenReleased (fun s => s.takeAccepted (.scene capture msg)) s

/-- BYPASS_ON (R68, R69, R123). -/
def execBypassOn (s : State) : Host.Outcome State Fault Refusal := whenReleased (fun s => s.takeAccepted .bypassOn) s

/-- BYPASS_OFF (R68, R69, R123). -/
def execBypassOff (s : State) : Host.Outcome State Fault Refusal := whenReleased (fun s => s.takeAccepted .bypassOff) s

/-- QUERY (R180). -/
def execQuery (clear : Bool) (s : State) : Host.Outcome State Fault Refusal :=
  whenReleased (fun s => s.takeAccepted (.query clear)) s

/-- HUSH (R164, R174). -/
def execHush (s : State) : Host.Outcome State Fault Refusal := whenReleased (fun s => s.settle.takeBreak) s

/-- SEND_START (R169, R170, R178, R181). -/
def execSendStart (s : State) : Host.Outcome State Fault Refusal := whenReleased (fun s => s.settle.takeSendStart) s

/-- ECHO_CHECK (R171, R172, R173, R122, R183). -/
def execEchoCheck (heard : Option Byte) (s : State) : Host.Outcome State Fault Refusal :=
  whenReleased (fun s => s.settle.takeEcho heard) s

/-- START_BIT (R159, R161, R170). -/
def execStartBit (s : State) : Host.Outcome State Fault Refusal := whenReleased (fun s => s.settle.takeStartBit) s

end Sys2Proof.Machine
end

