-- ==== Sys2Proof/Machine/RendererCommands.lean ====
section
/-! DEFINITION. Machine/RendererCommands.lean: the meanings of the grain renderer's and the arithmetic unit's commands.
-/

namespace Sys2Proof.Machine

/-- PLACEMENT_POINT_DUE (R137, R141, R150). -/
def execPlacementPointDue (voice : Voice) (s : State) : Host.Outcome State Fault Refusal :=
  whenReleased (fun s => s.takeOwed (.placementPointDue voice)) s

/-- FETCH_COMPLETION (R135, R136, R151, R152). -/
def execFetchCompletion (s : State) : Host.Outcome State Fault Refusal :=
  whenReleased (fun s => s.settle.completeFetch) s

/-- FETCH_WITHDRAWAL (R135, R136, R153). -/
def execFetchWithdrawal (voice : Voice) (s : State) : Host.Outcome State Fault Refusal :=
  whenReleased (fun s => s.takeOwed (.fetchWithdrawal voice)) s

/-- PLACE_COMPLETION (R137, R138, R140, R151, R152). -/
def execPlaceCompletion (s : State) : Host.Outcome State Fault Refusal :=
  whenReleased (fun s => s.settle.completePlace) s

/-- GRAIN_DROP (R142). -/
def execGrainDrop (voice : Voice) (s : State) : Host.Outcome State Fault Refusal :=
  whenReleased (fun s => s.takeOwed (.grainDrop voice)) s

/-- ENTERING_RAMP_FULL (R139). -/
def execEnteringRampFull (voice : Voice) (s : State) : Host.Outcome State Fault Refusal :=
  whenReleased (fun s => s.takeOwed (.enteringRampFull voice)) s

/-- CYCLE_STOP (R144). -/
def execCycleStop (voice : Voice) (s : State) : Host.Outcome State Fault Refusal :=
  whenReleased (fun s => s.takeOwed (.cycleStop voice)) s

end Sys2Proof.Machine
end

