-- ==== Sys2Proof/Machine/Dispatch.lean ====
section
/-! DEFINITION. Machine/Dispatch.lean: one arm per command of the table. -/

namespace Sys2Proof.Machine

def exec (i : Instr) (s : State) : Host.Outcome State Fault Refusal :=
  match i with
  | .resetAssert => Sys2Proof.Machine.execResetAssert s
  | .resetRelease pins lineAtMark => Sys2Proof.Machine.execResetRelease pins lineAtMark s
  | .frameSync => Sys2Proof.Machine.execFrameSync s
  | .sampleArrival sample => Sys2Proof.Machine.execSampleArrival sample s
  | .lossOfAudio => Sys2Proof.Machine.execLossOfAudio s
  | .leaveWarming => Sys2Proof.Machine.execLeaveWarming s
  | .analysisTick => Sys2Proof.Machine.execAnalysisTick s
  | .windowOverwrite => Sys2Proof.Machine.execWindowOverwrite s
  | .segmentCompletion => Sys2Proof.Machine.execSegmentCompletion s
  | .peerEntryExpiry => Sys2Proof.Machine.execPeerEntryExpiry s
  | .sceneDuePoint => Sys2Proof.Machine.execSceneDuePoint s
  | .placementPointDue voice => Sys2Proof.Machine.execPlacementPointDue voice s
  | .fetchCompletion => Sys2Proof.Machine.execFetchCompletion s
  | .fetchWithdrawal voice => Sys2Proof.Machine.execFetchWithdrawal voice s
  | .placeCompletion => Sys2Proof.Machine.execPlaceCompletion s
  | .grainDrop voice => Sys2Proof.Machine.execGrainDrop voice s
  | .enteringRampFull voice => Sys2Proof.Machine.execEnteringRampFull voice s
  | .cycleStop voice => Sys2Proof.Machine.execCycleStop voice s
  | .frameStart => Sys2Proof.Machine.execFrameStart s
  | .characterReceived char => Sys2Proof.Machine.execCharacterReceived char s
  | .lineReturnToMark => Sys2Proof.Machine.execLineReturnToMark s
  | .frameBoundary => Sys2Proof.Machine.execFrameBoundary s
  | .claim msg => Sys2Proof.Machine.execClaim msg s
  | .scene capture msg => Sys2Proof.Machine.execScene capture msg s
  | .bypassOn => Sys2Proof.Machine.execBypassOn s
  | .bypassOff => Sys2Proof.Machine.execBypassOff s
  | .query clear => Sys2Proof.Machine.execQuery clear s
  | .hush => Sys2Proof.Machine.execHush s
  | .sendStart => Sys2Proof.Machine.execSendStart s
  | .echoCheck heard => Sys2Proof.Machine.execEchoCheck heard s
  | .startBit => Sys2Proof.Machine.execStartBit s

end Sys2Proof.Machine
end

