-- ==== Sys2Proof/Safety.lean ====
section
/-! DEFINITION. Safety.lean: what holds in every state that a run of the HX24 goes through, one property for each block,
in the terms that the statements use. -/

namespace Sys2Proof.Machine

/-- The part takes a command as it comes: RESET_N is high and no step of an earlier arrival or boundary is left (log
1). -/
def State.ready (s : State) : Prop := s.resetN = true ∧ s.owed = []

/-! ### The addressed stores -/

/-- Every listed address lies below n. -/
def Cells.within {α : Type} (n : Nat) (c : Cells α) : Prop := ∀ x ∈ c, x.1 < n

/-- The capture ring is in canonical form and lists entries 0..4095 alone (R8). -/
def State.ringCanonical (s : State) : Prop := Cells.wf 0 s.ring = true ∧ Cells.within 4096 s.ring

/-- Every overlap buffer is in canonical form and lists entries 0..2047 alone (R127). -/
def State.overlapsCanonical (s : State) : Prop :=
  ∀ v : Voice, Cells.wf 0 (s.channel v).overlap = true ∧ Cells.within 2048 (s.channel v).overlap

/-- Both addressed stores are in canonical form. -/
def State.storesCanonical (s : State) : Prop := s.ringCanonical ∧ s.overlapsCanonical

/-! ### Counters, ramps and the line controller's counts -/

/-- Every counter lies in 0..65535 (R182). -/
def State.countersBounded (s : State) : Prop := ∀ k : Counter, s.counters.get k ≤ 65535

/-- Every ramp count lies in 0..256 and every leave rate is 1 or 4 (R127). -/
def State.rampsBounded (s : State) : Prop :=
  ∀ v : Voice, (s.channel v).ramp ≤ 256 ∧ ((s.channel v).leaveRate = 1 ∨ (s.channel v).leaveRate = 4)

/-- How many characters the frame in reception holds. -/
def Receiver.count : Receiver → Nat
  | .receiving chars _ _ => chars.length
  | .gapWait => 0
  | .ready => 0
  | .skippingGroup _ => 0
  | .skippingError => 0
  | .breaking => 0

/-- How many data bits of a character have been sampled. -/
def LineRx.count : LineRx → Nat
  | .mark => 0
  | .character bits => bits.length
  | .space => 0

/-- The idle time lies in 0..74, the space run in 0..40, the collision count in 0..7, a frame in reception has at most
64 characters, and a character at most eight data bits before its stop bit (R158, R159, R161, R162, R171, R172, R173).
-/
def State.lineBounded (s : State) : Prop :=
  s.line.idle ≤ 74 ∧ s.line.spaceRun ≤ 40 ∧ s.line.collisions ≤ 7 ∧ s.line.receiver.count ≤ 64 ∧
    s.line.rx.count ≤ 8 ∧ s.line.echo.length ≤ 9

/-- The fresh count lies in 0..4096, a loss timer that runs is short of 24,000, at most 24 bits of slot 0 are taken, and
an output frame has eight slots and stands at one of its 256 bits or past them (R1, R3, R4, R11, R13). -/
def State.audioBounded (s : State) : Prop :=
  s.audio.fresh ≤ 4096 ∧ (∀ n, s.audio.lossTimer = some n → n < 24000) ∧
    (∀ k, s.audio.inputBits = some k → k ≤ 24) ∧
    ∀ f, s.audio.out = some f → f.slots.length = 8 ∧ f.driven ≤ 256

/-- Decisions since a send lie in 0..16, decisions since a placement in 0..8, and voice ages in 0..255 (R110, R113). -/
def State.decisionsBounded (s : State) : Prop :=
  s.alloc.sinceSend ≤ 16 ∧ s.alloc.sincePlacement ≤ 8 ∧ ∀ v : Voice, (s.voice v).age ≤ 255

/-! ### Pitch marks -/

/-- How many sixteenths a position lies behind the stage clock, which is 16 more than it lies behind the newest sample
(R10, R35). -/
def sixteenthsBack (clock : Pos) (p : Pos16) : Nat := (clock.sixteenths - p).toNat

/-- The cover end, where it has not fallen too far behind (R36; log 32). -/
def State.nearCover (s : State) : Option Pos16 := if s.coverFar then none else s.coverEnd

/-- The mark list holds marks of the periods that R35 allows in strictly increasing position, all before the cover end
and none more than 36,864 sixteenths behind the newest sample; two marks of one 256-sample frame lie at least 384
sixteenths apart; and an ABSENT tracker has none (R33, R35 to R39). -/
def State.marksOrdered (s : State) : Prop :=
  (s.tracker = .absent → s.marks = [] ∧ s.coverEnd = none ∧ s.coverFar = false) ∧
    (∀ m ∈ s.marks, sixteenthsBack s.clock m.pos ≤ 36880 ∧ 384 ≤ m.period ∧ m.period ≤ 14336) ∧
    (s.marks.Pairwise fun a b => sixteenthsBack s.clock b.pos < sixteenthsBack s.clock a.pos) ∧
    (s.marks.Pairwise fun a b => a.pos.toNat / 4096 = b.pos.toNat / 4096 → a.pos.toNat + 384 ≤ b.pos.toNat) ∧
    ∀ m ∈ s.marks, ∃ c, s.nearCover = some c ∧ sixteenthsBack s.clock c < sixteenthsBack s.clock m.pos

/-- The cover end is the tick of a completed analysis, not too far behind; the analysis in flight is of a later tick
whose window is not lost, and its best lag lies in 24..896; a tick that is owed is later than the cover end (R10, R19,
R21, R34, R36). -/
def State.analysisPlaced (s : State) : Prop :=
  (∀ c, s.nearCover = some c → c.toNat % 4096 = 0 ∧ sixteenthsBack s.clock c ≤ 36880) ∧
    (∀ a, s.tracker = .analysing a →
      a.tick.toNat % 256 = 0 ∧
      (sixteenthsBack s.clock a.tick.sixteenths ≤ 32768 ∨
        (Owed.windowOverwrite ∈ s.owed ∧ sixteenthsBack s.clock a.tick.sixteenths ≤ 32784)) ∧
      (∀ c, s.nearCover = some c →
        sixteenthsBack s.clock a.tick.sixteenths + 4096 ≤ sixteenthsBack s.clock c) ∧
      ∀ k, a.search = some k → 24 ≤ k.bestLag ∧ k.bestLag ≤ 896) ∧
    (Owed.analysisTick ∈ s.owed →
      s.clock.toNat % 256 = 0 ∧ ∀ c, s.nearCover = some c → c ≠ s.clock.sixteenths)

/-! ### Jobs -/

/-- The jobs whose completions their owners await: those in the list, and the running one unless it has been withdrawn
or a hush has overtaken it (R149, R153; log 12). -/
def Arbiter.awaited (a : Arbiter) : List Job :=
  a.list ++ (a.running.toList.filter fun r => decide (r.fate = .live) || decide (r.fate = .dropped)).map Running.job

/-- At most one PLACE and one FETCH for each voice and one ANALYSIS segment; a merged FETCH is of a pair and is owned by
its lower voice; and no job waits for a FREE unit (R136, R149, R151). -/
def Arbiter.withinLimits (a : Arbiter) : Prop :=
  (∀ v : Voice, (a.awaited.filter (Job.isPlaceOf v)).length ≤ 1 ∧ (a.awaited.filter (Job.isFetchFor v)).length ≤ 1) ∧
    (a.awaited.filter Job.isAnalysis).length ≤ 1 ∧
    (∀ o q m, Job.fetch o (some q) m ∈ a.awaited → q = o.partner ∧ o.index < q.index) ∧
    (a.running = none → a.list = [])

/-- What the owners' registers say of the jobs they await: a PLACE stands for a placement point that has come due, a
FETCH for a register that is FETCHING its mark, both in a running cycle, and a segment for the analysis in flight; a
channel at rest runs no cycle (R17, R135, R137, R144, R149). -/
def State.jobsOwned (s : State) : Prop :=
  (∀ v g m, Job.place v g m ∈ s.arbiter.awaited →
    (s.channel v).placementPoint = none ∧ (s.channel v).cycleRunning = true) ∧
  (∀ j ∈ s.arbiter.awaited, ∀ v : Voice, j.isFetchFor v = true → ∀ o q m, j = .fetch o q m →
    (∃ m', (s.channel v).next = .fetching m' ∧ m'.pos = m.pos) ∧ (s.channel v).cycleRunning = true) ∧
  (∀ t k, Job.analysis t k ∈ s.arbiter.awaited → ∃ a, s.tracker = .analysing a ∧ a.tick = t) ∧
  ∀ v : Voice,
    (((s.channel v).state = .off ∨ (s.channel v).state = .parked) → (s.channel v).cycleRunning = false) ∧
    ((s.channel v).placementPoint.isSome = true → (s.channel v).cycleRunning = true)

/-! ### Claim queue and stage map -/

/-- At most eight claims, no two of one sender, none of the own id, none with more than four items (R92, R93). -/
def State.queueKeyed (s : State) : Prop :=
  s.claimQueue.length ≤ 8 ∧ (s.claimQueue.Pairwise fun a b => a.sender ≠ b.sender) ∧
    ∀ m ∈ s.claimQueue, m.sender ≠ s.straps.id ∧ m.items.length ≤ 4

/-- A note of the period table, 33..93 (00_scope.md, Note numbers). -/
def noteSound (n : Nat) : Prop := 33 ≤ n ∧ n ≤ 93

/-- What a peer entry holds: a live note in range, a silence below 64, at most four claims with distinct indices, notes
in range and ages up to 255 (R97, R100, R102). -/
def PeerEntry.sound (e : PeerEntry) : Prop :=
  (∀ n, e.live = some n → noteSound n) ∧ e.silence ≤ 63 ∧ e.voices.length ≤ 4 ∧
    (e.voices.Pairwise fun a b => a.voice ≠ b.voice) ∧ ∀ c ∈ e.voices, noteSound c.note ∧ c.age ≤ 255

/-- Peer entries keyed by station id, none with the own id (R97). -/
def State.mapKeyed (s : State) : Prop :=
  (s.map.Pairwise fun a b => a.id.toNat < b.id.toNat) ∧ ∀ e ∈ s.map, e.id ≠ s.straps.id ∧ e.sound

/-- The queue and the map together: the map takes its entries from the queue. -/
def State.stageKnown (s : State) : Prop := s.queueKeyed ∧ s.mapKeyed

/-! ### Voices -/

/-- A disabled voice's channel is OFF (R7). -/
def State.disabledOff (s : State) : Prop := ∀ v : Voice, s.enabled v = false → (s.channel v).state = .off

/-- A disabled voice has no target (R7). -/
def State.disabledUntargeted (s : State) : Prop := ∀ v : Voice, s.enabled v = false → (s.voice v).target = none

/-- An enabled voice whose rule is not OFF is not OFF, and one whose rule is OFF is OFF or LEAVING (R118, R130). -/
def State.scenePlaced (s : State) : Prop :=
  ∀ v : Voice, s.enabled v = true →
    (s.ruleOff v = false → (s.channel v).state ≠ .off) ∧
    (s.ruleOff v = true → (s.channel v).state = .off ∨ (s.channel v).state = .leaving)

/-- A voice has a target exactly when it is ENTERING, SOUNDING or GLIDING (R110). -/
def State.targetsSound (s : State) : Prop := ∀ v : Voice, (s.voice v).target.isSome = (s.channel v).state.sounds

/-- The voices' states, targets and rules agree (R7, R110, R118, R130). -/
def State.voicesAgree (s : State) : Prop :=
  s.disabledOff ∧ s.disabledUntargeted ∧ s.scenePlaced ∧ s.targetsSound

/-- No two voices hold the same target (R117). -/
def State.targetsDistinct (s : State) : Prop :=
  ∀ v w : Voice, ∀ t, (s.voice v).target = some t → (s.voice w).target = some t → v = w

/-- The held note, where present, lies in 33..93 (R54). -/
def Follower.noteInTable (f : Follower) : Prop := ∀ n, f.heldNote = some n → noteSound n

/-- Held, candidate and target notes lie in 33..93 (R54, R117). -/
def State.notesInTable (s : State) : Prop :=
  (∀ c p, s.follower = .arming c p → noteSound c) ∧ s.follower.noteInTable ∧
    (∀ h d p, s.follower = .changing h d p → noteSound d) ∧
    ∀ v : Voice, ∀ t, (s.voice v).target = some t → noteSound t

/-- A record that a decision can build: at most one entry a voice, in index order, notes in the table, ages up to 255
(R119). -/
def ClaimRecord.sound (r : ClaimRecord) : Prop :=
  (∀ n, r.live = some n → noteSound n) ∧ (r.entries.Pairwise fun a b => a.voice.index < b.voice.index) ∧
    ∀ e ∈ r.entries, noteSound e.note ∧ e.age ≤ 255

/-- The own claim record and the record in the CLAIM slot are such (R119, R169). -/
def State.recordsSound (s : State) : Prop :=
  s.alloc.record.sound ∧ ∀ r, s.line.claimSlot = some r → r.sound

/-- A step within an octave either way (R82). -/
def stepSound (k : Nat) : Prop := 2048 ≤ k ∧ k ≤ 8192

/-- Steps in force, posted steps and glide origins lie in 2048..8192, and a glide has a position left to run (R82, R83,
R84, R85). -/
def State.stepsInRange (s : State) : Prop :=
  ∀ v : Voice,
    (∀ k, (s.channel v).stepInForce = some k → stepSound k) ∧
    (∀ k, (s.voice v).postedStep = some k → stepSound k) ∧
    ∀ g, (s.voice v).glide = some g → stepSound g.origin ∧ g.position < g.length

/-! ### Audio and reset -/

/-- The tracker is ABSENT exactly while audio is ABSENT (R17). -/
def State.trackerFollowsAudio (s : State) : Prop := s.audio.state = .absent ↔ s.tracker = .absent

/-- No analysis can complete: the tracker is ABSENT or WARMING. -/
def Tracker.quiet : Tracker → Bool
  | .absent => true
  | .warming => true
  | .waiting => false
  | .analysing _ => false

/-- While no analysis can complete, the follower is in REST, there are no marks and no voice has a target (R18, R33,
R44, R51, R125). -/
def State.restsUntilWarm (s : State) : Prop :=
  s.tracker.quiet = true →
    s.follower = .rest ∧ s.marks = [] ∧ s.coverEnd = none ∧ ∀ v : Voice, (s.voice v).target = none

/-- While RESET_N is low every block stands at its reset value; the strap latch, the period table and the
model's own lists of what is to come alone are left out (R6; logs 6, 25, 28, 35). -/
def State.heldInReset (s : State) : Prop :=
  s.resetN = false →
    s = { State.released s.straps true s.audioIn s.lineIn s.pending with resetN := false, npt := s.npt }

/-! ### Owed steps and their commands -/

/-- The command that brings an accepted frame to its block. -/
def Accepted.command : Accepted → Instr
  | .claim m => .claim m
  | .scene capture m => .scene capture m
  | .bypassOn => .bypassOn
  | .bypassOff => .bypassOff
  | .query clear => .query clear

/-- The command that takes an owed step. -/
def Owed.command : Owed → Instr
  | .leaveWarming => .leaveWarming
  | .analysisTick => .analysisTick
  | .windowOverwrite => .windowOverwrite
  | .sceneDuePoint => .sceneDuePoint
  | .fetchWithdrawal v => .fetchWithdrawal v
  | .placementPointDue v => .placementPointDue v
  | .grainDrop v => .grainDrop v
  | .enteringRampFull v => .enteringRampFull v
  | .cycleStop v => .cycleStop v
  | .accept a => a.command

/-- Whether a command finds every owed step taken: all but the owed steps' own commands and the edges of RESET_N (log
1). -/
def Instr.settles : Instr → Bool
  | .frameSync => true
  | .sampleArrival _ => true
  | .lossOfAudio => true
  | .segmentCompletion => true
  | .peerEntryExpiry => true
  | .fetchCompletion => true
  | .placeCompletion => true
  | .frameStart => true
  | .startBit => true
  | .characterReceived _ => true
  | .lineReturnToMark => true
  | .frameBoundary => true
  | .hush => true
  | .sendStart => true
  | .echoCheck _ => true
  | .resetAssert => false
  | .resetRelease _ _ => false
  | .leaveWarming => false
  | .analysisTick => false
  | .windowOverwrite => false
  | .sceneDuePoint => false
  | .placementPointDue _ => false
  | .fetchWithdrawal _ => false
  | .grainDrop _ => false
  | .enteringRampFull _ => false
  | .cycleStop _ => false
  | .claim _ => false
  | .scene _ _ => false
  | .bypassOn => false
  | .bypassOff => false
  | .query _ => false

/-! ### Effects that several commands share -/

/-- The line controller l' is l with this record placed in the CLAIM slot: a frame in hand built from that slot is told
so, and an IDLE transmitter for which a slot is pending now is DEFERRING (R169, R170). -/
def LineControl.ClaimPlaced (r : ClaimRecord) (l l' : LineControl) : Prop :=
  l' = { l with
    claimSlot := some r
    frameInHand := l.frameInHand.map fun f =>
      { f with replaced := f.replaced || decide (f.content.slot = .claim) }
    transmitter :=
      if l.transmitter = .idle ∧ (l.clash = false ∨ l.reportSlot.isSome = true) then .deferring else l.transmitter }

/-- A channel that has received "no target" is LEAVING at rate 1 where it was ENTERING, SOUNDING or GLIDING, and is
unchanged in every other state (R129). -/
def Channel.NoTargetPosted (c c' : Channel) : Prop :=
  ((c.state = .entering ∨ c.state = .sounding ∨ c.state = .gliding) → c' = { c with state := .leaving, leaveRate := 1 }) ∧
  ((c.state = .off ∨ c.state = .parked ∨ c.state = .leaving) → c' = c)

/-- A voice with no target, age 0, clear flags, no posted step and no glide (R112). -/
def VoiceAlloc.bare (a : VoiceAlloc) : Prop :=
  a = { target := none, age := 0, doubled := false, unplaced := false, postedStep := none, glide := none }

/-- The arbiter b is what a grant at a FREE unit makes of these waiting jobs: nothing runs where none waits; otherwise a
job of the least rank runs, PLACE before FETCH before ANALYSIS and lower voices first, and the rest wait (R151). -/
def Arbiter.GrantedFrom (waiting : List Job) (b : Arbiter) : Prop :=
  (waiting = [] → b = { running := none, list := [] }) ∧
  (waiting ≠ [] → ∃ j ∈ waiting, (∀ k ∈ waiting, j.rank ≤ k.rank) ∧
    b = { running := some { job := j, fate := .live }, list := waiting.erase j })

/-- The scene takes effect between s and t: it is the active scene whole, none is pending, an analysis in flight is
abandoned with its segment withdrawn, waiting or running, each enabled voice whose new rule is OFF loses its target and
leaves or becomes OFF, an OFF voice whose new rule is not OFF becomes PARKED, and nothing else changes (R31, R67, R118,
R130, R153). -/
def State.SceneTakenEffect (scene : Scene) (s t : State) : Prop :=
  t = { s with
    scenes := { active := scene, pending := none, bypass := s.scenes.bypass }
    tracker := t.tracker
    arbiter := t.arbiter
    alloc := { s.alloc with voices := t.alloc.voices }
    channels := t.channels } ∧
  ((∃ a, s.tracker = .analysing a) → t.tracker = .waiting ∧
    t.arbiter.list = s.arbiter.list.filter (fun j => !j.isAnalysis) ∧
    t.arbiter.running = s.arbiter.running.map fun r =>
      if r.job.isAnalysis = true then { r with fate := .discarded } else r) ∧
  ((¬ ∃ a, s.tracker = .analysing a) → t.tracker = s.tracker ∧ t.arbiter = s.arbiter) ∧
  ∀ v : Voice,
    (s.enabled v = false → t.voice v = s.voice v ∧ t.channel v = s.channel v) ∧
    (s.enabled v = true → (scene.rules.get v).mode = .off →
      (t.voice v).bare ∧
      ((s.channel v).state = .parked → t.channel v = { s.channel v with state := .off }) ∧
      ((s.channel v).state ≠ .parked → (s.channel v).NoTargetPosted (t.channel v))) ∧
    (s.enabled v = true → (scene.rules.get v).mode ≠ .off →
      t.voice v = s.voice v ∧
      ((s.channel v).state = .off → t.channel v = { s.channel v with state := .parked }) ∧
      ((s.channel v).state ≠ .off → t.channel v = s.channel v))

/-- The channel of a voice that is silent with nothing held, in this state (R127, R144, R146). -/
def silentChannel (state : VoiceState) : Channel :=
  { state := state, ramp := 0, rampStart := none, leaveRate := 1, stepInForce := none, outputMark := none,
    placementPoint := none, current := none, next := .empty, overlap := [], cycleRunning := false }

end Sys2Proof.Machine
end

