-- ==== Sys2Proof/Certificates/Slice0/Obligations.lean ====
section
/-! DEFINITION. Certificates/Slice0/Obligations.lean: the statements for the provers. Each names the rules of spec/ it
comes from; where a clause is the model's own choice it names the log entry. -/

open Sys2Proof Sys2Proof.Machine

/-! ### The machine -/

/-- A step takes the command at the front of the queue and runs exec on it with the queue's rest. The queue is the
model's own (log 25). -/
def Obligations.StepTakesTheFrontCommand : Prop :=
  ∀ (c : Instr) (rest : List Instr) (s : State), s.pending = c :: rest → step s = exec c { s with pending := rest }

/-- Every command leaves the waiting commands, the coming audio edges and the line's coming levels as they are. The
three lists are the model's own (logs 25, 28, 35). -/
def Clause.CommandsLeaveTheQueue : Prop :=
  ∀ (c : Instr) (s t : State), exec c s = .next t →
    t.pending = s.pending ∧ t.audioIn = s.audioIn ∧ t.lineIn = s.lineIn

/-! ### Reset and straps -/

/-- R5: the latched values change at a rising edge of RESET_N alone, and the period table with them. That the falling
edge, up to which R5 holds them, leaves them too is the model's choice (log 6). -/
def Clause.StrapsHoldUntilReset : Prop :=
  ∀ (c : Instr) (s t : State), (∀ p m, c ≠ .resetRelease p m) → exec c s = .next t →
    t.straps = s.straps ∧ t.npt = s.npt

/-- R6: while RESET_N is low no command but the edges of RESET_N itself has an effect. -/
def Clause.LowResetTakesNothing : Prop :=
  ∀ (c : Instr) (s : State), s.resetN = false → c ≠ .resetAssert → (∀ p m, c ≠ .resetRelease p m) → exec c s = .next s

/-- R5, R6, R17, R40, R44, R55, R56, R58, R92, R97, R110, R127, R128, R149, R160, R182: the state that the rising edge
of RESET_N leaves, value by value. The strap levels and the line level are operands (log 5, log 24); the queue, the
coming audio edges and the line's coming levels are the model's own (logs 25, 28, 35); and that AFSYNC counts as low
before the first falling edge is its choice (log 35). -/
def Obligations.ResetReleaseLeavesResetValues : Prop :=
  ∀ (pins : StrapPins) (lineAtMark : Bool) (s : State),
    exec (.resetRelease pins lineAtMark) s = .next
      { resetN := true
        straps := pins
        npt := periodTable pins.tune pins.fs
        audio :=
          { state := .absent, syncHigh := false, inputReg := 0, inputBits := none, lossTimer := none, fresh := 0,
            out := none }
        ring := []
        clock := 0
        tracker := .absent
        result := { frame := 0, reason := .quiet, conf := 0, level := 0 }
        marks := []
        coverEnd := none
        coverFar := false
        follower := .rest
        scenes :=
          { active :=
              { number := 0, root := 0, scale := 0, threshold := 160, gate := 8, rubs := false, glide := 0,
                rules := Quad.const
                  { mode := .off, primary := 0, alternates := [], level := 0, pan := 0, intonation := .correct,
                    doubling := false } }
            pending := none
            bypass := false }
        claimQueue := []
        map := []
        alloc :=
          { voices := Quad.const
              { target := none, age := 0, doubled := false, unplaced := false, postedStep := none, glide := none }
            record := { live := none, entries := [] }
            lastSent := none
            sinceSend := 16
            sincePlacement := 8 }
        channels := Quad.const (silentChannel .off)
        mixer := { voices := Quad.const 0, left := 0, right := 0 }
        arbiter := { running := none, list := [] }
        line :=
          { receiver := .gapWait, rx := if lineAtMark then .mark else .space, spaceRun := 0, idle := 0,
            transmitter := .idle, frameInHand := none, echo := [], claimSlot := none, reportSlot := none, collisions := 0,
            collisionSlot := none, lastSender := pins.id, clash := false }
        counters :=
          { late := 0, repeats := 0, drop := 0, park := 0, collide := 0, giveUp := 0, badFrame := 0, inboxDrop := 0,
            expire := 0, clash := 0, hush := 0, clamp := 0 }
        owed := []
        audioIn := s.audioIn
        lineIn := s.lineIn
        pending := s.pending }

/-- R6: a falling edge of RESET_N abandons everything and leaves every block at the value a release begins with; ADOUT,
the VOICE_ACT pins and LINE_DE are low, LINE_TX is at mark and FAULT is high. The latch and the period table keep their
contents (log 6). -/
def Clause.ResetAssertHoldsEveryBlock : Prop :=
  ∀ s : State, ∃ t r, exec .resetAssert s = .next t ∧ exec (.resetRelease s.straps true) s = .next r ∧
    t = { r with resetN := false, npt := s.npt } ∧ t.faultPin = true ∧ t.lineDE = false ∧ t.lineTx = true ∧
    (∀ v, t.voiceAct v = false) ∧ t.adout = false

/-- R6: while RESET_N is low every block stands at its reset value, after every step; the latch and the period table
alone are left out (log 6), with the model's own lists (logs 25, 28, 35). -/
def Clause.LowResetHoldsThroughEveryStep : Prop :=
  ∀ s t : State, s.heldInReset → step s = .next t → t.heldInReset

/-- R6: the falling edge of RESET_N abandons everything, every block is held at its reset value while it is low, and
nothing but its own edges has an effect then. -/
def Obligations.ResetLowHoldsEveryBlock : Prop :=
  Clause.LowResetTakesNothing ∧ Clause.ResetAssertHoldsEveryBlock ∧ Clause.LowResetHoldsThroughEveryStep

/-- R40: each table entry is the integer nearest to 16 fs / (Aref 2^((n - 69)/12)), an exact half rounding upward; both
bounds are written with twelfth powers, so that every quantity is a whole number. -/
def Clause.PeriodTableIsTheNearestInteger : Prop :=
  ∀ (tune : BitVec 2) (fs : BitVec 1) (n : Fin 61),
    let aref := if tune = 0 then 440 else if tune = 1 then 442 else if tune = 2 then 444 else 438
    let rate := if fs = 0 then 48000 else 44100
    let e := nptEntry (periodTable tune fs) (33 + n.val)
    (2 * e - 1) ^ 12 * aref ^ 12 * 2 ^ n.val ≤ (32 * rate) ^ 12 * 2 ^ 36 ∧
      (32 * rate) ^ 12 * 2 ^ 36 < (2 * e + 1) ^ 12 * aref ^ 12 * 2 ^ n.val

/-- R41: the table falls by more than 20 from note to note, lies in 384..14336, and has the eight rows of ends and A4
entries that the rule lists. -/
def Clause.PeriodTableFallsWithinTheTrackerRange : Prop :=
  (∀ (tune : BitVec 2) (fs : BitVec 1) (n : Fin 60),
    nptEntry (periodTable tune fs) (33 + n.val + 1) + 20 < nptEntry (periodTable tune fs) (33 + n.val)) ∧
  (∀ (tune : BitVec 2) (fs : BitVec 1) (n : Fin 61),
    384 ≤ nptEntry (periodTable tune fs) (33 + n.val) ∧ nptEntry (periodTable tune fs) (33 + n.val) ≤ 14336) ∧
  ∀ (tune : BitVec 2) (fs : BitVec 1),
    (nptEntry (periodTable tune fs) 33, nptEntry (periodTable tune fs) 69, nptEntry (periodTable tune fs) 93) =
      if fs = 0 then
        if tune = 3 then (14027, 1753, 438) else if tune = 0 then (13964, 1745, 436)
        else if tune = 1 then (13900, 1738, 434) else (13838, 1730, 432)
      else if tune = 3 then (12888, 1611, 403) else if tune = 0 then (12829, 1604, 401)
        else if tune = 1 then (12771, 1596, 399) else (12714, 1589, 397)

/-- R40, R41: the period table, entry by entry, and the order and range of its entries. -/
def Obligations.PeriodTableIsExact : Prop :=
  Clause.PeriodTableIsTheNearestInteger ∧ Clause.PeriodTableFallsWithinTheTrackerRange

/-! ### Audio ports and the stage clock -/

/-- R1, R2, R3, R12, R13, R14, R18: a frame sync discards a partial sample, begins slot 0, restarts the loss timer and
opens an output frame at the stage clock with its eight values and its first bit driven; AFSYNC is high at it; while
audio is ABSENT it is an audio return as well. That a complete sample too leaves the input register is the model's
choice (log 29). -/
def Obligations.FrameSyncOpensAnOutputFrame : Prop :=
  ∀ s : State, s.ready →
    exec .frameSync s = .next { s with
      tracker := if s.audio.state = .absent then .warming else s.tracker
      audio :=
        { state := .present
          syncHigh := true
          inputReg := 0
          inputBits := some 0
          lossTimer := some 0
          fresh := if s.audio.state = .absent then 0 else s.audio.fresh
          out := some
            { position := s.clock
              slots :=
                [ if s.audio.state = .present ∧ 768 ≤ s.audio.fresh then (readRing s.ring (s.clock - 768)).toInt else 0,
                  s.mixer.voices.get .v0, s.mixer.voices.get .v1, s.mixer.voices.get .v2, s.mixer.voices.get .v3,
                  s.mixer.left, s.mixer.right, 0 ]
              driven := 0 } } }

/-- R1, R8, R9, R11, R39: a sample arrival with audio PRESENT writes the sample at its own position and no other entry,
advances the clock and the fresh count, lets old marks go, and changes nothing else but the channels, the mixer and the
steps it brings; with audio ABSENT no sample arrives. That a cover end too far behind is remembered as such is the
model's form of R36 (log 32). -/
def Clause.SampleArrivalCapturesTheSample : Prop :=
  ∀ (x : Sample) (s : State), s.ready →
    (s.audio.state = .absent → exec (.sampleArrival x) s = .next s) ∧
    (s.audio.state = .present → s.audio.fresh ≤ 4096 → s.ringCanonical →
      ∃ t, exec (.sampleArrival x) s = .next t ∧
        t = { s with
          ring := t.ring
          clock := s.clock + 1
          audio := { s.audio with inputReg := x, inputBits := some 24, fresh := min 4096 (s.audio.fresh + 1) }
          marks :=
            if s.tracker = .absent then s.marks
            else s.marks.dropWhile fun m => decide (36864 < behind16 s.clock.sixteenths m.pos)
          coverFar :=
            if s.tracker = .absent then s.coverFar
            else s.coverFar || s.coverEnd.any fun c => decide (36864 < behind16 s.clock.sixteenths c)
          channels := t.channels
          mixer := t.mixer
          owed := t.owed } ∧
        ∀ p : Pos, readRing t.ring p =
          if p.toNat % 4096 = s.clock.toNat % 4096 then x else readRing s.ring p)

/-- R1, R2, R3, R4: what an edge of ABCLK comes to. A falling edge with AFSYNC high after it was low at the previous one
is a frame sync; any other samples AFSYNC and moves the output frame on by one bit. A rising edge takes a bit of slot 0;
the 24th is the sample arrival; later ones, and those before the first frame sync, are ignored. That a partial sample's
bits are shifted in at its lower end (log 7), and that the steps of an arrival are taken before the next edge (log 1),
are the model's choices. -/
def Clause.EdgesBringSyncsBitsAndArrivals : Prop :=
  ∀ (s : State) (rest : List AudioEdge), s.ready →
    passEdges [] s = s ∧
    (s.audio.syncHigh = false →
      ∃ t, exec .frameSync s = .next t ∧ passEdges (.fall true :: rest) s = passEdges rest t) ∧
    (∀ afsync, (afsync = false ∨ s.audio.syncHigh = true) → (∀ f, s.audio.out = some f → f.driven ≤ 256) →
      passEdges (.fall afsync :: rest) s = passEdges rest { s with audio := { s.audio with
        syncHigh := afsync
        out := s.audio.out.map fun f => { f with driven := min 256 (f.driven + 1) } } }) ∧
    (∀ adin, (s.audio.inputBits = none ∨ ∃ k, s.audio.inputBits = some k ∧ 24 ≤ k) →
      passEdges (.rise adin :: rest) s = passEdges rest s) ∧
    ∀ (adin : Bool) (k : Nat) (x : Sample), s.audio.inputBits = some k →
      (∀ i, i < 24 → x.getLsbD i = if i = 0 then adin else s.audio.inputReg.getLsbD (i - 1)) →
      (k < 23 → passEdges (.rise adin :: rest) s = passEdges rest
        { s with audio := { s.audio with inputReg := x, inputBits := some (k + 1) } }) ∧
      (k = 23 → ∃ t, exec (.sampleArrival x) s = .next t ∧
        passEdges (.rise adin :: rest) s = passEdges rest t.settle)

/-- R1, R3: the 24 rising edges that follow a frame sync, with a falling edge before each but the first, come to the
arrival of the sample whose bits they took, most significant first; ADOUT then stands at bit 23 of the output frame. -/
def Clause.TwentyFourBitsBringTheirSample : Prop :=
  ∀ (x : Sample) (s : State) (f : OutFrame), s.ready → s.audio.state = .present → s.audio.inputBits = some 0 →
    s.audio.out = some f → f.driven = 0 →
    ∃ t, exec (.sampleArrival x) { s with audio := { s.audio with
        syncHigh := false, out := some { f with driven := 23 } } } = .next t ∧
      passEdges (.rise (x.getLsbD 23) ::
        (List.range 23).flatMap fun i => [.fall false, .rise (x.getLsbD (22 - i))]) s = t.settle

/-- R1, R2, R3, R4, R8, R9, R11, R39: how the bits on ADIN come to a sample, and what its arrival does. -/
def Obligations.SampleIsAssembledThenCaptured : Prop :=
  Clause.SampleArrivalCapturesTheSample ∧ Clause.EdgesBringSyncsBitsAndArrivals ∧
    Clause.TwentyFourBitsBringTheirSample

/-- R9: the stage clock advances by one at a sample arrival while audio is PRESENT, returns to 0 at a reset, and no
other command moves it. -/
def Clause.ClockMovesAtSampleArrivalsAlone : Prop :=
  ∀ (c : Instr) (s t : State), exec c s = .next t →
    ((∃ x, c = .sampleArrival x) →
      t.clock = if s.resetN = true ∧ s.audio.state = .present then s.clock + 1 else s.clock) ∧
    ((c = .resetAssert ∨ ∃ p m, c = .resetRelease p m) → t.clock = 0) ∧
    ((∀ x, c ≠ .sampleArrival x) → c ≠ .resetAssert → (∀ p m, c ≠ .resetRelease p m) → t.clock = s.clock)

/-- R128, R139: when the new position becomes due, each channel's entry for it is freed and every other sum stays, and
its ramp count moves by the table of R139; nothing else of the channel changes. -/
def Clause.DuePositionAdvancesTheRamps : Prop :=
  ∀ (x : Sample) (s : State), s.ready → s.audio.state = .present → s.overlapsCanonical →
    ∃ t, exec (.sampleArrival x) s = .next t ∧ ∀ v : Voice,
      t.channel v = { s.channel v with overlap := (t.channel v).overlap, ramp := (t.channel v).ramp } ∧
      (∀ p : Pos, readOverlap (t.channel v).overlap p =
        if p.toNat % 2048 = (s.clock + 1).toNat % 2048 then 0 else readOverlap (s.channel v).overlap p) ∧
      ((s.channel v).state = .entering → (s.channel v).rampStart = none → (t.channel v).ramp = (s.channel v).ramp) ∧
      (∀ p, (s.channel v).state = .entering → (s.channel v).rampStart = some p →
        (t.channel v).ramp =
          if 0 ≤ (s.clock + 1 - p).toInt then min ((s.channel v).ramp + 1) 256 else (s.channel v).ramp) ∧
      (((s.channel v).state = .sounding ∨ (s.channel v).state = .gliding) → (t.channel v).ramp = 256) ∧
      ((s.channel v).state = .leaving → (t.channel v).ramp = (s.channel v).ramp - (s.channel v).leaveRate) ∧
      (((s.channel v).state = .off ∨ (s.channel v).state = .parked) → (t.channel v).ramp = 0)

/-- R89, R90, R91, R128: the mixer's samples of the newly due position, from each channel's sum and its ramp count
before the event, under the levels and pans of the active scene. -/
def Clause.MixerFormsTheDuePosition : Prop :=
  ∀ (x : Sample) (s : State), s.ready → s.audio.state = .present →
    ∃ t, exec (.sampleArrival x) s = .next t ∧
      (∀ v : Voice,
        (((s.channel v).state = .off ∨ (s.channel v).state = .parked) → t.mixer.voices.get v = 0) ∧
        ((s.channel v).state ≠ .off → (s.channel v).state ≠ .parked →
          t.mixer.voices.get v = saturate24 (roundHalfUp
            (readOverlap (s.channel v).overlap (s.clock + 1) * gain (s.rule v).level * (s.channel v).ramp) 8388608))) ∧
      t.mixer.left = saturate24 (roundHalfUp
        (t.mixer.voices.get .v0 * (64 - (s.rule .v0).pan) + t.mixer.voices.get .v1 * (64 - (s.rule .v1).pan) +
          t.mixer.voices.get .v2 * (64 - (s.rule .v2).pan) + t.mixer.voices.get .v3 * (64 - (s.rule .v3).pan)) 128) ∧
      t.mixer.right = saturate24 (roundHalfUp
        (t.mixer.voices.get .v0 * (64 + (s.rule .v0).pan) + t.mixer.voices.get .v1 * (64 + (s.rule .v1).pan) +
          t.mixer.voices.get .v2 * (64 + (s.rule .v2).pan) + t.mixer.voices.get .v3 * (64 + (s.rule .v3).pan)) 128)

/-- R89, R90, R91, R128, R139: what a newly due position does at the channels and at the mixer. -/
def Obligations.DuePositionAdvancesRampsAndFormsTheMix : Prop :=
  Clause.DuePositionAdvancesTheRamps ∧ Clause.MixerFormsTheDuePosition

/-- Rounding (00_scope.md): the nearest integer, an exact half upward; and the 24-bit saturation of R89 and R90. -/
def Clause.RoundingTakesHalvesUpward : Prop :=
  (∀ (n : Int) (d : Nat), 0 < d → 2 * d * roundHalfUp n d - d ≤ 2 * n ∧ 2 * n < 2 * d * roundHalfUp n d + d) ∧
  ∀ x : Int, saturate24 x = if x < -8388608 then -8388608 else if 8388607 < x then 8388607 else x

/-- R88: the gain of a level is 32768 × 10^(-(127 - level)/40) rounded to the nearest integer, an exact half upward, and
0 for level 0; the bounds are written with fortieth powers. -/
def Clause.GainIsTheNearestInteger : Prop :=
  gain 0 = 0 ∧ ∀ k : Fin 127,
    (2 * gain (127 - k.val) - 1) ^ 40 * 10 ^ k.val ≤ 65536 ^ 40 ∧
      65536 ^ 40 < (2 * gain (127 - k.val) + 1) ^ 40 * 10 ^ k.val

/-- Rounding (00_scope.md), saturation and the gain table (R88). -/
def Obligations.RoundingAndGainTakeTheNearestInteger : Prop :=
  Clause.RoundingTakesHalvesUpward ∧ Clause.GainIsTheNearestInteger

/-- R10, R18, R34, R66, R128, R135, R139, R142, R144: which steps come about with a sample arrival. They are owed from
then until taken (the model's choice, log 1). That a running PLACE which a hush has overtaken counts as dropped when
late is the model's reading of R142 and R145 (log 12). -/
def Obligations.ArrivalBringsItsSteps : Prop :=
  ∀ (x : Sample) (s : State), s.ready → s.audio.state = .present →
    ∃ t, exec (.sampleArrival x) s = .next t ∧
      (Owed.analysisTick ∈ t.owed ↔ t.clock.toNat % 256 = 0) ∧
      (Owed.leaveWarming ∈ t.owed ↔ s.tracker = .warming ∧ 2048 ≤ t.audio.fresh) ∧
      (Owed.windowOverwrite ∈ t.owed ↔ ∃ a, s.tracker = .analysing a ∧ 2048 < (t.clock - a.tick).toInt) ∧
      (Owed.sceneDuePoint ∈ t.owed ↔ ∃ p, s.scenes.pending = some p ∧ p.condition = .atDelay t.clock) ∧
      (∀ a, Owed.accept a ∉ t.owed) ∧
      ∀ v : Voice,
        (Owed.placementPointDue v ∈ t.owed ↔
          ∃ p, (s.channel v).placementPoint = some p ∧ 0 ≤ (t.clock - p).toInt) ∧
        (Owed.enteringRampFull v ∈ t.owed ↔ (t.channel v).state = .entering ∧ (t.channel v).ramp = 256) ∧
        (Owed.cycleStop v ∈ t.owed ↔ (t.channel v).state = .leaving ∧ (t.channel v).ramp = 0) ∧
        (Owed.fetchWithdrawal v ∈ t.owed ↔
          ∃ m, (s.channel v).next = .fetching m ∧ 4096 ≤ (s.clock - oldestSample m).toInt) ∧
        (Owed.grainDrop v ∈ t.owed ↔ ∃ g m, 0 ≤ (t.clock - firstPosition g m).toInt ∧
          (Job.place v g m ∈ s.arbiter.list ∨
            ∃ f, s.arbiter.running = some { job := .place v g m, fate := f } ∧ (f = .live ∨ f = .addsOnly)))

/-- R14, R33, R51, R71, R104, R125, R146, R157: a loss of audio, at every block. -/
def Obligations.LossOfAudioSilencesTheStation : Prop :=
  ∀ s : State, s.ready → s.audio.state = .present →
    ∃ t, exec .lossOfAudio s = .next t ∧
      t = { s with
        audio := { s.audio with state := .absent, inputReg := 0, inputBits := none, lossTimer := none, out := none }
        tracker := .absent
        marks := []
        coverEnd := none
        coverFar := false
        follower := .rest
        channels := t.channels
        mixer := { voices := Quad.const 0, left := 0, right := 0 }
        arbiter := { running := none, list := [] }
        alloc :=
          { voices := t.alloc.voices, record := { live := none, entries := [] }, lastSent := s.alloc.lastSent,
            sinceSend := s.alloc.sinceSend, sincePlacement := 0 }
        line := t.line } ∧
      LineControl.ClaimPlaced { live := none, entries := [] } s.line t.line ∧
      ∀ v : Voice, (t.voice v).bare ∧
        t.channel v = silentChannel
          (if (s.channel v).state = .off then .off
            else if (s.channel v).state = .parked then .parked
            else if (s.rule v).mode = .off then .off else .parked)

/-! ### Pitch tracker, note follower and decision -/

/-- R18: the tracker leaves WARMING for WAITING. -/
def Clause.WarmingEndsInWaiting : Prop :=
  ∀ s : State, s.resetN = true → Owed.leaveWarming ∈ s.owed → s.tracker = .warming → 2048 ≤ s.audio.fresh →
    exec .leaveWarming s = .next { s with tracker := .waiting, owed := s.owed.erase .leaveWarming }

/-- R10, R18, R19, R20, R150: an analysis tick starts an analysis from WAITING with the gate and threshold of the active
scene, is counted LATE in ANALYSING, is ignored in WARMING, and where its own arrival ends WARMING finds the tracker
WAITING. -/
def Clause.TickStartsAnAnalysisOrIsLate : Prop :=
  ∀ s : State, s.resetN = true → Owed.analysisTick ∈ s.owed →
    (∀ s1 : State,
      (s1 = s ∧ Owed.leaveWarming ∉ s.owed ∧ s.tracker = .waiting) ∨
        (s1 = { s with owed := s.owed.erase .leaveWarming } ∧ Owed.leaveWarming ∈ s.owed ∧ s.tracker = .warming ∧
          2048 ≤ s.audio.fresh) →
      ∃ b, exec .analysisTick s = .next { s1 with
          tracker := .analysing
            { tick := s.clock, gate := s.scenes.active.gate, threshold := s.scenes.active.threshold, segment := 1,
              level := none, search := none }
          arbiter := b
          owed := s1.owed.erase .analysisTick } ∧
        (s.arbiter.running = none → b.GrantedFrom (s.arbiter.list ++ [.analysis s.clock 1])) ∧
        (s.arbiter.running ≠ none → b = { s.arbiter with list := s.arbiter.list ++ [.analysis s.clock 1] })) ∧
    (Owed.leaveWarming ∉ s.owed → (∃ a, s.tracker = .analysing a) → s.counters.late ≤ 65535 →
      exec .analysisTick s = .next { s with
        counters := { s.counters with late := min 65535 (s.counters.late + 1) }
        owed := s.owed.erase .analysisTick }) ∧
    (Owed.leaveWarming ∉ s.owed → s.tracker = .warming →
      exec .analysisTick s = .next { s with owed := s.owed.erase .analysisTick })

/-- R34, R153: an analysis whose window's oldest sample is overwritten is abandoned: its segment is withdrawn, waiting
or running, the tracker is WAITING, and LATE is counted. -/
def Clause.WindowOverwriteAbandonsTheAnalysis : Prop :=
  ∀ (s : State) (a : Analysis), s.resetN = true → Owed.windowOverwrite ∈ s.owed → s.tracker = .analysing a →
    2048 < (s.clock - a.tick).toInt → s.counters.late ≤ 65535 →
    exec .windowOverwrite s = .next { s with
      tracker := .waiting
      arbiter :=
        { list := s.arbiter.list.filter fun j => !j.isAnalysis
          running := s.arbiter.running.map fun r =>
            if r.job.isAnalysis = true then { r with fate := .discarded } else r }
      counters := { s.counters with late := min 65535 (s.counters.late + 1) }
      owed := s.owed.erase .windowOverwrite }

/-- R21, R152, R153: a segment's completion takes the analysis on to its next segment, which competes in the grant that
follows; a completion of an abandoned analysis changes nothing at the tracker. What a segment computes is computed at
its completion (the model's reading, log 10). -/
def Clause.SegmentCompletionGoesOn : Prop :=
  ∀ (s : State) (tick : Pos) (k : Nat) (f : Fate), s.ready →
    s.arbiter.running = some { job := .analysis tick k, fate := f } →
    (∀ a a' : Analysis, f = .live → s.tracker = .analysing a → a.tick = tick →
      runSegment s.npt (analysisWindow s.ring tick) a = .goesOn a' →
      ∃ b, exec .segmentCompletion s = .next { s with tracker := .analysing a', arbiter := b } ∧
        b.GrantedFrom (s.arbiter.list ++ [.analysis tick a'.segment])) ∧
    ((f ≠ .live ∨ ∀ a : Analysis, s.tracker = .analysing a → a.tick ≠ tick) →
      ∃ b, exec .segmentCompletion s = .next { s with arbiter := b } ∧ b.GrantedFrom s.arbiter.list)

/-- R10, R18, R19, R20, R21, R34, R152, R153: what the end of warming, an analysis tick, the overwriting arrival and a
segment that goes on do at the tracker. -/
def Obligations.TrackerMovesAtItsEvents : Prop :=
  Clause.WarmingEndsInWaiting ∧ Clause.TickStartsAnAnalysisOrIsLate ∧ Clause.WindowOverwriteAbandonsTheAnalysis ∧
    Clause.SegmentCompletionGoesOn

/-- R23: D at a lag is the sum, over i = 0..1023, of |x[i] - x[i + lag]|, where x[i] is the captured sample at the
window's i-th position (R19). -/
def Clause.DifferenceSumsTheLaggedDistances : Prop :=
  ∀ (ring : Cells Sample) (tick : Pos) (lag : Nat), lag ≤ 896 →
    let x := fun i : Nat => (readRing ring (tick - 2048 + BitVec.ofNat 24 i)).toInt
    difference (analysisWindow ring tick) lag = ((List.range 1024).map fun i => (x i - x (i + lag)).natAbs).sum

/-- R22: segment 1 ends the analysis as QUIET with confidence 0 where the level, the floored mean of the magnitudes of
the 2048 window samples, is below gate × 4096, and goes on to segment 2 with that level where it is not. -/
def Clause.LevelGateEndsQuietWindows : Prop :=
  ∀ (npt : List Nat) (ring : Cells Sample) (a : Analysis), a.segment = 1 →
    let level := ((List.range 2048).map fun i =>
      (readRing ring (a.tick - 2048 + BitVec.ofNat 24 i)).toInt.natAbs).sum / 2048
    runSegment npt (analysisWindow ring a.tick) a =
      if level < a.gate * 4096 then .ends { frame := a.tick, reason := .quiet, conf := 0, level := level }
      else .goesOn { a with segment := 2, level := some level }

/-- R24: the coarse search finds the least D among the lags 24, 40, …, 888, the smaller lag winning a tie, and keeps the
floored mean of the 55 values. -/
def Clause.CoarseSearchFindsTheLeastDifference : Prop :=
  ∀ w : List Int, let k := coarseSearch w
    (∃ i : Fin 55, k.bestLag = 24 + 16 * i.val) ∧ k.bestD = difference w k.bestLag ∧
    (∀ i : Fin 55, k.bestD < difference w (24 + 16 * i.val) ∨
      (k.bestD = difference w (24 + 16 * i.val) ∧ k.bestLag ≤ 24 + 16 * i.val)) ∧
    k.dmean = ((List.range 55).map fun i => difference w (24 + 16 * i)).sum / 55

/-- R25: a refinement with step s ends on the lag of the least D among the current best and the two lags s away that lie
in 24..896, the smaller lag winning a tie; the best D follows the lag, and the lag stays in 24..896. -/
def Clause.RefinementTakesTheLeastNeighbour : Prop :=
  ∀ (w : List Int) (step lag d : Nat), 24 ≤ lag → lag ≤ 896 → d = difference w lag →
    let r := refine w step (lag, d)
    24 ≤ r.1 ∧ r.1 ≤ 896 ∧ r.2 = difference w r.1 ∧ (r.1 = lag ∨ r.1 + step = lag ∨ r.1 = lag + step) ∧
      ∀ l, 24 ≤ l → l ≤ 896 → (l = lag ∨ l + step = lag ∨ l = lag + step) →
        r.2 < difference w l ∨ (r.2 = difference w l ∧ r.1 ≤ l)

/-- R21, R24, R25: segment 2 keeps what the coarse search finds, and segments 3 to 6 refine it with steps of 8, 4, 2 and
1; the coarse mean stays. -/
def Clause.SearchSegmentsRunInOrder : Prop :=
  ∀ (npt : List Nat) (w : List Int) (a : Analysis),
    (a.segment = 2 → a.search = none →
      runSegment npt w a = .goesOn { a with segment := 3, search := some (coarseSearch w) }) ∧
    ∀ (k : Search) (i : Fin 4), a.segment = 3 + i.val → a.search = some k →
      let r := refine w (8 / 2 ^ i.val) (k.bestLag, k.bestD)
      runSegment npt w a = .goesOn { a with
        segment := 4 + i.val, search := some { bestLag := r.1, bestD := r.2, dmean := k.dmean } }

/-- R22, R23, R24, R25: the level gate, the difference at a lag, the coarse search and the refinements. -/
def Obligations.SearchFindsTheBestLag : Prop :=
  Clause.LevelGateEndsQuietWindows ∧
    Clause.DifferenceSumsTheLaggedDistances ∧
    Clause.CoarseSearchFindsTheLeastDifference ∧
    Clause.RefinementTakesTheLeastNeighbour ∧
    Clause.SearchSegmentsRunInOrder

/-- R26: the octave guard acts where half the lag, rounded up, is 24 or more and matches within one eighth of the lag
itself; it then refines from that half with steps 2 and 1. Otherwise the lag is kept. -/
def Clause.OctaveGuardTriesHalfTheLag : Prop :=
  ∀ (npt : List Nat) (w : List Int) (a : Analysis) (k : Search), a.segment = 7 → a.search = some k →
    let half := (k.bestLag + 1) / 2
    let r := if 24 ≤ half ∧ 8 * difference w half ≤ 9 * k.bestD then
        refine w 1 (refine w 2 (half, difference w half)) else (k.bestLag, k.bestD)
    runSegment npt w a = .goesOn { a with
      segment := 8, search := some { bestLag := r.1, bestD := r.2, dmean := k.dmean } }

/-- R27: the period is 16 × (L + δ) rounded once, a half upward, with δ the offset of the parabola's lowest point,
clamped to half a sample either way, and 0 at the ends of the range and where the parabola does not open upward; it
stays within half a sample of the lag and in 384..14336. -/
def Clause.PeriodIsTheParabolasLowestPoint : Prop :=
  ∀ (w : List Int) (lag : Nat), 24 ≤ lag → lag ≤ 896 →
    let below : ℚ := difference w (lag - 1)
    let above : ℚ := difference w (lag + 1)
    let den : ℚ := 2 * (below - 2 * difference w lag + above)
    let offset : ℚ := if lag = 24 ∨ lag = 896 ∨ den ≤ 0 then 0 else max (-1 / 2) (min (1 / 2) ((below - above) / den))
    (refinedPeriod w lag : Int) = ⌊16 * ((lag : ℚ) + offset) + 1 / 2⌋ ∧
      16 * lag ≤ refinedPeriod w lag + 8 ∧ refinedPeriod w lag ≤ 16 * lag + 8 ∧
      384 ≤ refinedPeriod w lag ∧ refinedPeriod w lag ≤ 14336

/-- R28: segment 8 ends the analysis: the confidence, then UNSURE below the threshold, then the conversion of the
period, OUT_OF_RANGE where it has no note and VOICED where it has one. -/
def Clause.ConfidenceThenRangeDecideTheReason : Prop :=
  ∀ (npt : List Nat) (w : List Int) (a : Analysis) (k : Search), a.segment = 8 → a.search = some k →
    let conf := if k.dmean = 0 then 0 else 255 - min 255 (255 * k.bestD / k.dmean)
    let p := refinedPeriod w k.bestLag
    ∃ r, runSegment npt w a = .ends r ∧ r.frame = a.tick ∧ r.level = a.level.getD 0 ∧ r.conf = conf ∧
      (conf < a.threshold → r.reason = .unsure) ∧
      (a.threshold ≤ conf → periodToPitch npt p = none → r.reason = .outOfRange) ∧
      ∀ note cents, a.threshold ≤ conf → periodToPitch npt p = some (note, cents) → r.reason = .voiced p note cents

/-- R26, R27, R28: the octave guard, the refined period, and the confidence and reason of segment 8. -/
def Obligations.FinalSegmentsGradeTheMatch : Prop :=
  Clause.OctaveGuardTriesHalfTheLag ∧ Clause.PeriodIsTheParabolasLowestPoint ∧
    Clause.ConfidenceThenRangeDecideTheReason

/-- R42, R43: a period outside the table's ends has no note; one inside has the note and cents whose interval it lies
in, with cents in -49..50. -/
def Obligations.PeriodConvertsToNoteAndCents : Prop :=
  ∀ (tune : BitVec 2) (fs : BitVec 1) (p : Nat), let npt := periodTable tune fs
    ((nptEntry npt 33 < p ∨ p < nptEntry npt 93) → periodToPitch npt p = none) ∧
    (∀ n, 33 ≤ n → n ≤ 92 → nptEntry npt (n + 1) < p → p ≤ nptEntry npt n →
      let c := roundHalfUp (100 * ((nptEntry npt n : Int) - p)) (nptEntry npt n - nptEntry npt (n + 1))
      periodToPitch npt p = (if c ≤ 50 then some (n, c) else some (n + 1, c - 100)) ∧ 0 ≤ c ∧ c ≤ 100) ∧
    (p = nptEntry npt 93 → periodToPitch npt p = some (93, 0))

/-- R36, R37, R38, R39: the marks of a completion. Marks more than 36,864 sixteenths behind the newest sample leave
first (log 19). The first new mark lies one period after the last mark where that is of the same kind, voiced or
unvoiced, and else at the span start: the cover end, or 256 samples before the tick, but no further behind than the
limit. A new mark follows every period before the tick, and those that lie further behind than the limit are not
appended. Whether the cover end has fallen too far behind is an operand (log 32). -/
def Obligations.MarksContinueTheirRunOrStartTheSpan : Prop :=
  ∀ (clock tick : Pos) (coverEnd : Option Pos16) (far : Bool) (marks : List Mark) (reason : Reason),
    let late := fun q : Pos16 => decide (36864 < ((clock - 1).sixteenths - q).toInt)
    let voiced := match reason with | .voiced _ _ _ => true | _ => false
    let period := match reason with | .voiced p _ _ => p | _ => 2048
    let kept := marks.dropWhile fun m => late m.pos
    let stated := match coverEnd with | some c => c | none => (tick - 256).sixteenths
    let start := if far = true ∨ late stated = true then (clock - 1).sixteenths - 36864 else stated
    let first := match kept.getLast? with
      | some m => if m.voiced = voiced then m.pos + BitVec.ofNat 28 period else start
      | none => start
    1 ≤ period →
      ∃ idx : List Nat, (idx.Pairwise fun i j => i < j) ∧
        (∀ i, i ∈ idx ↔ ((i * period : Nat) : Int) < (tick.sixteenths - first).toInt ∧
          late (first + BitVec.ofNat 28 (i * period)) = false) ∧
        appendMarks clock tick coverEnd far marks reason = kept ++ idx.map fun i =>
          { pos := first + BitVec.ofNat 28 (i * period), period := period, voiced := voiced }

/-- R46, R48: the follower's step on a voiced result with note x and period p, from each state. -/
def Clause.FollowerStepsOnVoicedResults : Prop :=
  ∀ (x p note k q : Nat) (cents : Int) (h d : Nat),
    followerStep (.voiced p x cents) .rest = .arming x p ∧
    followerStep (.voiced p x cents) (.arming note q) = (if x = note then .held note p else .arming x p) ∧
    followerStep (.voiced p x cents) (.held h q) = (if x = h then .held h p else .changing h x p) ∧
    followerStep (.voiced p x cents) (.changing h d q) =
      (if x = d then .held d p else if x = h then .held h p else .changing h x p) ∧
    followerStep (.voiced p x cents) (.lapsing h k q) = (if x = h then .held h p else .changing h x p)

/-- R47, R48: the follower's step on an unvoiced result, from each state; the live P stays, and is absent in REST. -/
def Clause.FollowerLapsesOnUnvoicedResults : Prop :=
  ∀ (r : Reason) (c h d q : Nat), (r = .quiet ∨ r = .unsure ∨ r = .outOfRange) →
    followerStep r .rest = .rest ∧ followerStep r (.arming c q) = .rest ∧
    followerStep r (.held h q) = .lapsing h 1 q ∧ followerStep r (.changing h d q) = .lapsing h 1 q ∧
    followerStep r (.lapsing h 1 q) = .lapsing h 2 q ∧ followerStep r (.lapsing h 2 q) = .rest ∧
    Follower.rest.liveP = none

/-- R46, R47, R48: the follower's step on every kind of result, from every state. -/
def Obligations.FollowerStepsByItsTables : Prop :=
  Clause.FollowerStepsOnVoicedResults ∧ Clause.FollowerLapsesOnUnvoicedResults

/-- R30, R36, R45, R98, R101, R102, R111, R119, R152: an analysis that ends writes its result and its marks, returns to
WAITING, and leads to one decision: the follower steps on it, the queue is drained into the map, whose entries age and
expire with EXPIRE counted for each (within the decision: log 8), the two counts of decisions rise, and the record lists
the held note and the voices with targets. -/
def Obligations.AnalysisCompletionLeadsToOneDecision : Prop :=
  ∀ (s : State) (a : Analysis) (k : Nat) (r : ResultRecord), s.ready →
    s.arbiter.running = some { job := .analysis a.tick k, fate := .live } → s.tracker = .analysing a →
    runSegment s.npt (analysisWindow s.ring a.tick) a = .ends r → s.alloc.sinceSend ≤ 16 → s.alloc.sincePlacement ≤ 8 →
    s.counters.expire ≤ 65535 →
    ∃ t, exec .segmentCompletion s = .next t ∧
      t = { s with
        result := r
        marks := appendMarks s.clock a.tick s.coverEnd s.coverFar s.marks r.reason
        coverEnd := some a.tick.sixteenths
        coverFar := false
        tracker := .waiting
        follower := followerStep r.reason s.follower
        scenes := t.scenes
        claimQueue := []
        map := (drainAndAge s.claimQueue s.map).filter fun e => decide (e.silence < 64)
        alloc := t.alloc
        channels := t.channels
        arbiter := t.arbiter
        line := t.line
        counters := { s.counters with
          expire := min 65535 (s.counters.expire +
            ((drainAndAge s.claimQueue s.map).filter fun e => decide (64 ≤ e.silence)).length)
          park := t.counters.park } } ∧
      t.alloc.record.live = t.follower.heldNote ∧
      t.alloc.record.entries = (Voice.all.filterMap fun v => (t.voice v).target.map fun n =>
        { voice := v, note := n, age := (t.voice v).age, doubled := (t.voice v).doubled }) ∧
      t.alloc.lastSent = s.alloc.lastSent ∧ t.alloc.sinceSend = min 16 (s.alloc.sinceSend + 1)

/-- R120, R121, R169: a decision's record is placed in the CLAIM slot exactly when it differs from the last-sent one in
more than ages, or 16 decisions have passed since a send, and the minimum interval has passed since a placement. What a
placement does to the frame in hand, its replaced flag, is the model's form of R122 and R169 (log 11). -/
def Obligations.DecisionPlacesTheRecordWhenDue : Prop :=
  ∀ (s : State) (a : Analysis) (k : Nat) (r : ResultRecord), s.ready →
    s.arbiter.running = some { job := .analysis a.tick k, fate := .live } → s.tracker = .analysing a →
    runSegment s.npt (analysisWindow s.ring a.tick) a = .ends r → s.alloc.sinceSend ≤ 16 → s.alloc.sincePlacement ≤ 8 →
    ∃ t, exec .segmentCompletion s = .next t ∧
      let changed := ∀ l, s.alloc.lastSent = some l → ¬ (l.live = t.alloc.record.live ∧
        l.entries.map (fun e => (e.voice, e.note, e.doubled)) =
          t.alloc.record.entries.map fun e => (e.voice, e.note, e.doubled))
      let due := (changed ∨ 16 ≤ s.alloc.sinceSend + 1) ∧
        (if s.straps.rate = 0 then 2 else 8) ≤ min 8 (s.alloc.sincePlacement + 1)
      (due → LineControl.ClaimPlaced t.alloc.record s.line t.line ∧ t.alloc.sincePlacement = 0) ∧
      (¬ due → t.line = s.line ∧ t.alloc.sincePlacement = min 8 (s.alloc.sincePlacement + 1))

/-- R111, R112, R117, R118, R130: a decision with no held note, or in bypass, removes every target, whatever scene is
pending, and posts "no target" to every enabled voice; PARK is not counted, and no job is asked for. Where a pending
AT_REST scene takes effect at it, an enabled OFF or PARKED voice comes out OFF or PARKED by its rule in that scene, and
every other one as "no target" leaves it. -/
def Clause.RestingDecisionRemovesEveryTarget : Prop :=
  ∀ (s : State) (a : Analysis) (k : Nat) (r : ResultRecord), s.ready →
    s.arbiter.running = some { job := .analysis a.tick k, fate := .live } → s.tracker = .analysing a →
    runSegment s.npt (analysisWindow s.ring a.tick) a = .ends r →
    (s.scenes.bypass = true ∨ (followerStep r.reason s.follower).heldNote = none) →
    let takesEffect := fun p : PendingScene =>
      s.scenes.pending = some p ∧ p.condition = .atRest ∧ followerStep r.reason s.follower = .rest
    ∃ t, exec .segmentCompletion s = .next t ∧ t.counters.park = s.counters.park ∧
      t.arbiter.GrantedFrom s.arbiter.list ∧ ∀ v : Voice, (t.voice v).bare ∧
        (s.enabled v = false → t.channel v = s.channel v) ∧
        (s.enabled v = true → (∀ p, ¬ takesEffect p) → (s.channel v).NoTargetPosted (t.channel v)) ∧
        ∀ p, s.enabled v = true → takesEffect p →
          (((s.channel v).state = .off ∨ (s.channel v).state = .parked) → t.channel v =
            { s.channel v with state := if (p.scene.rules.get v).mode = .off then .off else .parked }) ∧
          ((s.channel v).state ≠ .off → (s.channel v).state ≠ .parked → (s.channel v).NoTargetPosted (t.channel v))

/-- R64, R111: a pending AT_REST scene takes effect at a decision whose follower state is REST, and stays pending at any
other; a pending AT_DELAY scene stays pending. -/
def Clause.RestSceneWaitsForRest : Prop :=
  ∀ (s : State) (a : Analysis) (k : Nat) (r : ResultRecord) (p : PendingScene), s.ready →
    s.arbiter.running = some { job := .analysis a.tick k, fate := .live } → s.tracker = .analysing a →
    runSegment s.npt (analysisWindow s.ring a.tick) a = .ends r → s.scenes.pending = some p →
    ∃ t, exec .segmentCompletion s = .next t ∧
      (p.condition = .atRest → followerStep r.reason s.follower = .rest →
        t.scenes = { active := p.scene, pending := none, bypass := s.scenes.bypass }) ∧
      ((p.condition ≠ .atRest ∨ followerStep r.reason s.follower ≠ .rest) → t.scenes = s.scenes)

/-- R64, R111, R112, R117, R118, R130: a decision that allocates no voice, and a scene that waits for rest. -/
def Obligations.RestingDecisionsClearTheVoicesAndLetScenesIn : Prop :=
  Clause.RestingDecisionRemovesEveryTarget ∧ Clause.RestSceneWaitsForRest

/-- R80 to R86, R101, R111, R113 to R117, R129, R132, R150, R151: a decision with a held note h and bypass off. The two
passes run for h on the new map. A voice that they leave without a target is posted "no target", its posted step and
glide absent. A voice with a target is posted its step, or the next step of its glide, and its channel is posted the
target on the marks that the completion has appended. A disabled voice is posted nothing. The grant that ends the
completion is made among the jobs that waited and the FETCHes of the cycles that start. -/
def Obligations.DecisionAllocatesForTheHeldNote : Prop :=
  ∀ (s : State) (a : Analysis) (k : Nat) (r : ResultRecord) (h p : Nat), s.ready →
    s.arbiter.running = some { job := .analysis a.tick k, fate := .live } → s.tracker = .analysing a →
    runSegment s.npt (analysisWindow s.ring a.tick) a = .ends r → s.scenes.bypass = false →
    (followerStep r.reason s.follower).heldNote = some h → (followerStep r.reason s.follower).liveP = some p →
    s.counters.park ≤ 65535 →
    let map := (drainAndAge s.claimQueue s.map).filter fun e => decide (e.silence < 64)
    let marks := appendMarks s.clock a.tick s.coverEnd s.coverFar s.marks r.reason
    let passes := State.runPasses { s with map := map } h
    let posted := fun (v : Voice) (n : Nat) => stepFor s.npt (s.rule v).intonation h p n
    let glide := fun (v : Voice) (n : Nat) =>
      glideFor (s.channel v) s.scenes.active.glide (s.voice v).target n (posted v n) (passes.voices.get v).glide
    let starts := fun (v : Voice) (m : Mark) => s.enabled v = true ∧ (passes.voices.get v).target.isSome = true ∧
      ((s.channel v).state = .parked ∨ ((s.channel v).state = .leaving ∧ (s.channel v).cycleRunning = false)) ∧
      chooseMark marks s.clock (s.clock - 640).sixteenths = some m
    ∃ t waiting, exec .segmentCompletion s = .next t ∧
      t.scenes = s.scenes ∧ t.counters.park = min 65535 (s.counters.park + passes.parks) ∧
      (∀ v : Voice,
        (s.enabled v = false → t.voice v = s.voice v ∧ t.channel v = s.channel v) ∧
        (s.enabled v = true → (passes.voices.get v).target = none →
          t.voice v = { passes.voices.get v with postedStep := none, glide := none } ∧
          (s.channel v).NoTargetPosted (t.channel v)) ∧
        ∀ n, s.enabled v = true → (passes.voices.get v).target = some n →
          (t.voice v = { passes.voices.get v with
            postedStep := match glide v n with
              | some g => some (advanceGlide g (posted v n)).1
              | none => some (posted v n)
            glide := match glide v n with
              | some g => (advanceGlide g (posted v n)).2
              | none => none }) ∧
          t.channel v = (State.postTarget v (t.voice v).glide.isSome
            { s with marks := marks, alloc := { s.alloc with voices := t.alloc.voices } }).channel v) ∧
      t.arbiter.GrantedFrom waiting ∧
      (∀ j, (∀ o q m, j ≠ .fetch o q m) → (j ∈ waiting ↔ j ∈ s.arbiter.list)) ∧
      ∀ (v : Voice) (m : Mark), (∃ j ∈ waiting, j.fetches v m = true) ↔
        (∃ j ∈ s.arbiter.list, j.fetches v m = true) ∨ ∃ m', starts v m' ∧ m'.pos = m.pos

/-- R113: the hold pass keeps an enabled voice on its target where its rule is not OFF, the target is in its candidate
list and it does not clash, with its age one up and its flags clear; otherwise the voice loses its target. -/
def Clause.HoldPassKeepsFreeCandidates : Prop :=
  ∀ (s : State) (h : Nat) (v : Voice) (p : Passes) (n : Nat), s.enabled v = true → (p.voices.get v).target = some n →
    let a := p.voices.get v
    let kept := (s.rule v).mode ≠ .off ∧ n ∈ candidates s.scenes.active (s.rule v) h ∧
      clashes s.straps.id s.map s.scenes.active.rubs p.taken a.age n = false
    (kept → (s.holdVoice h v p).voices.get v =
        { a with age := if a.age < 255 then a.age + 1 else a.age, doubled := false, unplaced := false } ∧
      (s.holdVoice h v p).taken = n :: p.taken) ∧
    (¬ kept → (s.holdVoice h v p).voices.get v = { a with target := none, age := 0, doubled := false } ∧
      (s.holdVoice h v p).taken = p.taken) ∧
    (s.holdVoice h v p).parks = p.parks ∧ ∀ w, w ≠ v → (s.holdVoice h v p).voices.get w = p.voices.get w

/-- R7, R113, R114: what the passes leave as it is or clear: a voice with no target is not kept; a kept voice is not
assigned; a voice whose rule is OFF has age 0 and clear flags and stays without a target; a disabled voice is taken by
neither pass. Both passes take the voices in index order, the hold pass first. -/
def Clause.PassesTakeEachVoiceInTurn : Prop :=
  (∀ (s : State) (h : Nat) (v : Voice) (p : Passes),
    ((p.voices.get v).target = none → s.holdVoice h v p = p) ∧
    ((p.voices.get v).target ≠ none → s.assignVoice h v p = p) ∧
    (s.enabled v = true → (s.rule v).mode = .off → (p.voices.get v).target = none →
      (s.assignVoice h v p).taken = p.taken ∧ (s.assignVoice h v p).parks = p.parks ∧
        (s.assignVoice h v p).voices.get v =
          { p.voices.get v with age := 0, doubled := false, unplaced := false }) ∧
    (s.enabled v = false → s.holdVoice h v p = p ∧ s.assignVoice h v p = p)) ∧
  ∀ (s : State) (h : Nat), s.runPasses h =
    (s.assignVoice h .v3 <| s.assignVoice h .v2 <| s.assignVoice h .v1 <| s.assignVoice h .v0 <|
      s.holdVoice h .v3 <| s.holdVoice h .v2 <| s.holdVoice h .v1 <| s.holdVoice h .v0
        { voices := s.alloc.voices, taken := [], parks := 0 })

/-- R114, R115, R116: the assign pass gives an enabled voice without a target its first candidate that does not clash;
where all clash, its primary as a doubling if that is allowed and no own voice holds it; otherwise nothing, with PARK
counted where the voice begins to wait. -/
def Clause.AssignPassTakesTheFirstFreeCandidate : Prop :=
  ∀ (s : State) (h : Nat) (v : Voice) (p : Passes), s.enabled v = true → (s.rule v).mode ≠ .off →
    (p.voices.get v).target = none →
    let a := p.voices.get v
    let list := candidates s.scenes.active (s.rule v) h
    let busy := fun n => clashes s.straps.id s.map s.scenes.active.rubs p.taken 0 n
    let q := s.assignVoice h v p
    (∀ before n after, list = before ++ n :: after → (∀ m ∈ before, busy m = true) → busy n = false →
      q.voices.get v = { a with target := some n, age := 0, doubled := false, unplaced := false } ∧
        q.taken = n :: p.taken ∧ q.parks = p.parks) ∧
    (∀ primary rest, list = primary :: rest → (∀ m ∈ list, busy m = true) →
      ((s.rule v).doubling = true ∧ primary ∉ p.taken →
        q.voices.get v = { a with target := some primary, age := 0, doubled := true, unplaced := false } ∧
          q.taken = primary :: p.taken ∧ q.parks = p.parks) ∧
      (¬ ((s.rule v).doubling = true ∧ primary ∉ p.taken) →
        q.voices.get v = { a with age := 0, doubled := false, unplaced := true } ∧ q.taken = p.taken ∧
          q.parks = if a.unplaced = true then p.parks else p.parks + 1)) ∧
    ∀ w, w ≠ v → q.voices.get w = p.voices.get w

/-- R113, R114, R115, R116: the two passes of a decision. -/
def Obligations.PassesKeepThenAssign : Prop :=
  Clause.HoldPassKeepsFreeCandidates ∧ Clause.AssignPassTakesTheFirstFreeCandidate ∧ Clause.PassesTakeEachVoiceInTurn

/-! ### Candidate notes and steps -/

/-- R77, R78: from a held note in 33..93 the two folds bring any candidate into 33..93 and within 12 of the held note,
on its own pitch class; the distance fold leaves a candidate within 12 alone and otherwise stops at the first octave
that is within 12. -/
def Clause.FoldsBringCandidatesIntoRange : Prop :=
  ∀ h t : Int, 33 ≤ h → h ≤ 93 →
    let d := distanceFold h (t - h).natAbs t
    (h - 12 ≤ t ∧ t ≤ h + 12 → d = t) ∧ (h + 12 < t → h < d ∧ d ≤ h + 12) ∧ (t < h - 12 → h - 12 ≤ d ∧ d < h) ∧
      (d - t) % 12 = 0 ∧
      foldCandidate h t = (if d < 33 then d + 12 else if 93 < d then d - 12 else d) ∧
      33 ≤ foldCandidate h t ∧ foldCandidate h t ≤ 93 ∧ h - 12 ≤ foldCandidate h t ∧ foldCandidate h t ≤ h + 12

/-- R57, R74, R75: the degree snap takes the nearest of the eight offsets, the lower of two equally near, and the
DIATONIC candidate lies the interval's degrees above it. -/
def Clause.DegreeSnapTakesTheNearestOffset : Prop :=
  ∀ (scale : Fin 6) (root : Fin 12) (h i : Int), 33 ≤ h → h ≤ 93 → -14 ≤ i → i ≤ 14 →
    let p := (h - root.val) % 12
    let off := fun d : Nat => (scaleOffsets scale.val ++ [12]).getD d 0
    let d := snapDegree scale.val p
    d ≤ 7 ∧ (∀ e : Fin 8, (off d - p).natAbs ≤ (off e.val - p).natAbs) ∧
      (∀ e : Fin 8, e.val < d → (off d - p).natAbs < (off e.val - p).natAbs) ∧
      diatonicCandidate root.val scale.val h i =
        h - p + 12 * (((d : Int) + i) / 7) + off (((d : Int) + i) % 7).toNat

/-- R57: the offsets of the six scale types. -/
def Clause.ScalesHaveTheirOffsets : Prop :=
  (List.range 6).map scaleOffsets =
    [[0, 2, 4, 5, 7, 9, 11], [0, 2, 3, 5, 7, 8, 10], [0, 2, 3, 5, 7, 8, 11], [0, 2, 3, 5, 7, 9, 11],
      [0, 2, 4, 5, 7, 9, 10], [0, 2, 3, 5, 7, 9, 10]]

/-- R75, R76, R79: the candidate list of a rule has one entry for the primary and one for each alternate, in their
order: the folded candidate of the interval, which is h + i under SEMITONE and the degree snap's under DIATONIC. -/
def Clause.CandidateListTakesThePrimaryFirst : Prop :=
  ∀ (scene : Scene) (rule : VoiceRule) (h : Nat), 33 ≤ h → h ≤ 93 → rule.mode ≠ .off →
    (candidates scene rule h).length = 1 + rule.alternates.length ∧
    ∀ (j : Nat) (i : Int), (rule.primary :: rule.alternates)[j]? = some i →
      ∃ n : Nat, (candidates scene rule h)[j]? = some n ∧
        (rule.mode = .semitone → (n : Int) = foldCandidate h (h + i)) ∧
        (rule.mode = .diatonic → (n : Int) = foldCandidate h (diatonicCandidate scene.root scene.scale h i))

/-- R57, R74, R75, R76, R77, R78, R79: the scales, the degree snap, the two folds and the candidate list. -/
def Obligations.CandidatesSnapAndFold : Prop :=
  Clause.FoldsBringCandidatesIntoRange ∧ Clause.DegreeSnapTakesTheNearestOffset ∧ Clause.ScalesHaveTheirOffsets ∧
    Clause.CandidateListTakesThePrimaryFirst

/-- R80, R81, R82: the two steps, each rounded once and clamped to 2048..8192. -/
def Clause.StepsAreRoundedThenClamped : Prop :=
  ∀ (npt : List Nat) (h p n : Nat),
    let c := roundHalfUp (4096 * p) (nptEntry npt n)
    let f := roundHalfUp (4096 * nptEntry npt h) (nptEntry npt n)
    (stepFor npt .correct h p n : Int) = (if c < 2048 then 2048 else if 8192 < c then 8192 else c) ∧
    (stepFor npt .follow h p n : Int) = (if f < 2048 then 2048 else if 8192 < f then 8192 else f)

/-- R84, R85, R86: the glide of a target posting: it begins from the step in force when a SOUNDING or GLIDING voice has
a new note and G is 1 or more, goes on while the note stays, and its step lies j / length of the way, exactly the new
step at the last position, where the record ends. -/
def Obligations.GlidesRunFromTheStepInForce : Prop :=
  (∀ (c : Channel) (length t new k : Nat) (before : Option Nat) (g : Option Glide),
    (c.state = .sounding ∨ c.state = .gliding) → c.stepInForce = some k →
    (before ≠ some t → 1 ≤ length →
      glideFor c length before t new g = some { origin := k, length := length, position := 0 }) ∧
    (before ≠ some t → length = 0 → glideFor c length before t new g = none) ∧
    (before = some t → glideFor c length before t new g = g)) ∧
  (∀ (c : Channel) (length t new : Nat) (before : Option Nat) (g : Option Glide),
    c.state ≠ .sounding → c.state ≠ .gliding → glideFor c length before t new g = none) ∧
  ∀ (g : Glide) (new : Nat), g.position < g.length →
    ((advanceGlide g new).1 : Int) =
      g.origin + roundHalfUp (((new : Int) - g.origin) * ((g.position : Int) + 1)) g.length ∧
    (g.position + 1 < g.length → (advanceGlide g new).2 = some { g with position := g.position + 1 }) ∧
    (g.position + 1 = g.length → (advanceGlide g new).2 = none ∧ (advanceGlide g new).1 = new)


/-! ### Claim queue and stage map -/

/-- R94: a CLAIM from a sender that has a queued claim replaces that claim's contents in its place; the queue's length
stays and nothing else changes. -/
def Clause.ClaimReplacesItsSendersQueuedClaim : Prop :=
  ∀ (m : ClaimMsg) (s : State) (before after : List ClaimMsg) (q : ClaimMsg), s.ready → m.items.length ≤ 4 →
    m.sender ≠ s.straps.id → s.claimQueue = before ++ q :: after → q.sender = m.sender →
    (∀ x ∈ before ++ after, x.sender ≠ m.sender) →
    exec (.claim m) s = .next { s with claimQueue := before ++ m :: after }

/-- R95: a CLAIM from a sender without a queued claim joins at the tail of a queue of fewer than eight, and is dropped
from a full one with INBOXDROP counted, the queued claims kept and its sender still without a queued claim. -/
def Clause.ClaimFromNewSenderJoinsOrIsDropped : Prop :=
  ∀ (m : ClaimMsg) (s : State), s.ready → m.items.length ≤ 4 → m.sender ≠ s.straps.id →
    (∀ x ∈ s.claimQueue, x.sender ≠ m.sender) → s.counters.inboxDrop ≤ 65535 →
    (s.claimQueue.length < 8 → exec (.claim m) s = .next { s with claimQueue := s.claimQueue ++ [m] }) ∧
    (8 ≤ s.claimQueue.length → exec (.claim m) s =
      .next { s with counters := { s.counters with inboxDrop := min 65535 (s.counters.inboxDrop + 1) } })

/-- R93, R178: the station's own CLAIM is not queued; contents with more than four voice claims count BADFRAME (log 15).
-/
def Clause.OwnOrMalformedClaimsAreNotQueued : Prop :=
  ∀ (m : ClaimMsg) (s : State), s.ready →
    (m.items.length ≤ 4 → m.sender = s.straps.id → exec (.claim m) s = .next s) ∧
    (4 < m.items.length → s.counters.badFrame ≤ 65535 → exec (.claim m) s =
      .next { s with counters := { s.counters with badFrame := min 65535 (s.counters.badFrame + 1) } })

/-- R94, R95 (and R93, R178): what the claim queue does with an accepted CLAIM. -/
def Obligations.ClaimIsMergedQueuedOrDropped : Prop :=
  Clause.ClaimReplacesItsSendersQueuedClaim ∧
    Clause.ClaimFromNewSenderJoinsOrIsDropped ∧
    Clause.OwnOrMalformedClaimsAreNotQueued

/-- R98, R99, R100, R101, R102: after a decision's drain and aging the map holds exactly the entries of the queued
claims, with silence 0, and the others one decision older; the order of the queue does not matter. -/
def Clause.DrainRefreshesAndAgesEntries : Prop :=
  ∀ (queue : List ClaimMsg) (map : List PeerEntry) (e : PeerEntry),
    (queue.Pairwise fun a b => a.sender ≠ b.sender) → (map.Pairwise fun a b => a.id.toNat < b.id.toNat) →
    (e ∈ drainAndAge queue map ↔
      (∃ m ∈ queue, e.id = m.sender ∧ e.silence = 0 ∧
        e.live = (if 33 ≤ m.live.toNat ∧ m.live.toNat ≤ 93 then some m.live.toNat else none) ∧
        e.voices = drainedVoices m.items) ∨
      (∃ x ∈ map, (∀ m ∈ queue, m.sender ≠ x.id) ∧ e.id = x.id ∧ e.live = x.live ∧ e.silence = x.silence + 1 ∧
        e.voices = x.voices.map fun c => { c with age := if c.age < 255 then c.age + 1 else c.age }))

/-- R102: PEER_ENTRY_EXPIRY removes exactly the entries whose silence has reached 64 and counts EXPIRE once for each.
That the row does so by itself is the model's reading (log 8). -/
def Clause.SilentEntriesExpire : Prop :=
  ∀ s : State, s.ready → s.counters.expire ≤ 65535 →
    exec .peerEntryExpiry s = .next { s with
      map := s.map.filter fun e => decide (e.silence < 64)
      counters := { s.counters with
        expire := min 65535 (s.counters.expire + (s.map.filter fun e => decide (64 ≤ e.silence)).length) } }

/-- R100: of a claim's items, in their order, those are taken whose note lies in 33..93 and whose voice index no earlier
taken item has; an item with a note out of range blocks no later one. -/
def Clause.ItemsAreTakenInTheirOrder : Prop :=
  ∀ items : List ClaimItem,
    let peer := fun i : ClaimItem =>
      ({ voice := i.voice, note := i.note.toNat, age := i.age.toNat, doubled := i.doubled } : PeerVoice)
    (∃ taken : List ClaimItem, taken.Sublist items ∧ drainedVoices items = taken.map peer) ∧
    ((drainedVoices items).Pairwise fun a b => a.voice ≠ b.voice) ∧
    ∀ c, c ∈ drainedVoices items ↔ ∃ before i after, items = before ++ i :: after ∧ c = peer i ∧
      33 ≤ i.note.toNat ∧ i.note.toNat ≤ 93 ∧
      ∀ x ∈ before, 33 ≤ x.note.toNat → x.note.toNat ≤ 93 → x.voice ≠ i.voice

/-- R98, R99, R100, R101, R102: the stage map's entries at a decision, their voice claims, and their expiry. -/
def Obligations.EntriesRefreshAgeAndExpire : Prop :=
  Clause.DrainRefreshesAndAgesEntries ∧ Clause.ItemsAreTakenInTheirOrder ∧ Clause.SilentEntriesExpire

/-- R105, R106: which peer claim outranks an own voice: the rows of the table. -/
def Clause.OutrankingFollowsItsTable : Prop :=
  ∀ (own peer : StationId) (ownAge : Nat) (c : PeerVoice),
    (c.doubled = true → outranks own peer ownAge c = false) ∧
    (c.doubled = false → 16 ≤ c.age → ownAge < 16 → outranks own peer ownAge c = true) ∧
    (c.doubled = false → c.age < 16 → 16 ≤ ownAge → outranks own peer ownAge c = false) ∧
    (c.doubled = false → (16 ≤ c.age ↔ 16 ≤ ownAge) → outranks own peer ownAge c = decide (peer.toNat < own.toNat))

/-- R107, R108: a note clashes for a voice exactly when a peer's live note is on it, an outranking claim is on it, with
rubs off either lies a semitone from it, or an own voice has it already. -/
def Clause.NotesClashByTheFourTests : Prop :=
  ∀ (own : StationId) (map : List PeerEntry) (rubs : Bool) (taken : List Nat) (age n : Nat),
    clashes own map rubs taken age n = true ↔
      (∃ e ∈ map, e.live = some n) ∨ (∃ e ∈ map, ∃ c ∈ e.voices, c.note = n ∧ outranks own e.id age c = true) ∨
      (rubs = false ∧ ((∃ e ∈ map, ∃ l, e.live = some l ∧ (l = n + 1 ∨ l + 1 = n)) ∨
        ∃ e ∈ map, ∃ c ∈ e.voices, (c.note = n + 1 ∨ c.note + 1 = n) ∧ outranks own e.id age c = true)) ∨
      n ∈ taken

/-- R105, R106, R107, R108: which peer claims outrank, and which notes clash. -/
def Obligations.ClashTestsRankPeerClaims : Prop :=
  Clause.OutrankingFollowsItsTable ∧ Clause.NotesClashByTheFourTests

/-! ### Scenes and controls -/

/-- R60, R61, R62, R63, R64, R65, R179: an accepted SCENE counts CLAMP once where a field was changed, and by its kept
switch mode takes effect at once, waits AT_REST, or waits AT_DELAY unless its delay has passed already; one that is not
well formed counts BADFRAME alone. The last is the model's choice (log 15), and so is the clearing of flags of voices
without a target (log 27). -/
def Clause.SceneIsSwitchedInByItsMode : Prop :=
  ∀ (capture : Pos) (m : SceneMsg) (s : State), s.ready → s.counters.clamp ≤ 65535 → s.counters.badFrame ≤ 65535 →
    (m.wellFormed = false → exec (.scene capture m) s =
      .next { s with counters := { s.counters with badFrame := min 65535 (s.counters.badFrame + 1) } }) ∧
    (m.wellFormed = true →
      ∃ s1 t, exec (.scene capture m) s = .next t ∧
        s1 = { s with counters := { s.counters with
          clamp := if sceneClamped m = true then min 65535 (s.counters.clamp + 1) else s.counters.clamp } } ∧
        (m.switchMode.toNat ≠ 1 → m.switchMode.toNat ≠ 2 → s1.SceneTakenEffect (keptScene m) t) ∧
        (m.switchMode.toNat = 1 → t = { s1 with
          scenes := { s.scenes with pending := some { scene := keptScene m, condition := .atRest } } }) ∧
        (m.switchMode.toNat = 2 → m.delay.toNat ≤ (s.clock - capture).toNat → s1.SceneTakenEffect (keptScene m) t) ∧
        (m.switchMode.toNat = 2 → (s.clock - capture).toNat < m.delay.toNat → t = { s1 with
          scenes := { s.scenes with
            pending := some { scene := keptScene m, condition := .atDelay (capture + m.delay) } } }))

/-- R61, R62: what is kept of a scene's fields, and that a SCENE counts as clamped exactly when a kept field differs
from the received one. -/
def Clause.ClampingBringsFieldsIntoRange : Prop :=
  ∀ m : SceneMsg, let k := keptScene m
    k.number = min m.number.toNat 127 ∧ k.root = m.root.toNat % 12 ∧
    k.scale = (if m.scale.toNat ≤ 5 then m.scale.toNat else 0) ∧ k.threshold = m.threshold.toNat ∧
    k.gate = m.gate.toNat ∧ k.rubs = m.options.getLsbD 0 ∧ k.glide = min m.glide.toNat 15 ∧
    keptSwitch m.switchMode =
      (if m.switchMode.toNat = 1 then .atRest else if m.switchMode.toNat = 2 then .atDelay else .atOnce) ∧
    (∀ v : Voice, let r := m.rules.get v; let kr := k.rules.get v
      let limit : Int := if kr.mode = .diatonic then 14 else 24
      kr.mode = (if r.mode.toNat = 1 then .diatonic else if r.mode.toNat = 2 then .semitone else .off) ∧
      kr.primary = max (-limit) (min limit r.primary.toInt) ∧
      kr.alternates = r.alternates.map (fun b => max (-limit) (min limit b.toInt)) ∧
      kr.level = min r.level.toNat 127 ∧ kr.pan = max (-64) (min 63 r.pan.toInt) ∧
      kr.intonation = (if r.flags.getLsbD 0 = true then .follow else .correct) ∧ kr.doubling = r.flags.getLsbD 1) ∧
    (sceneClamped m = false ↔
      m.number.toNat ≤ 127 ∧ m.root.toNat ≤ 11 ∧ m.scale.toNat ≤ 5 ∧ m.glide.toNat ≤ 15 ∧ m.switchMode.toNat ≤ 2 ∧
      ∀ v : Voice, (m.rules.get v).mode.toNat ≤ 2 ∧ (m.rules.get v).level.toNat ≤ 127 ∧
        (k.rules.get v).pan = (m.rules.get v).pan.toInt ∧ (k.rules.get v).primary = (m.rules.get v).primary.toInt ∧
        (k.rules.get v).alternates = (m.rules.get v).alternates.map BitVec.toInt)

/-- R60, R179: a SCENE payload that survives the walk has a length of 12 and six and the alternate count for each rule,
36..48 in all, with at most three alternates a rule, and its fixed fields and rules are the characters at their places.
-/
def Clause.SceneWalkTakesTheWholePayload : Prop :=
  ∀ (payload : List Byte) (m : SceneMsg), parseScene payload = some m →
    (∀ v : Voice, (m.rules.get v).alternates.length ≤ 3) ∧
      36 ≤ payload.length ∧ payload.length ≤ 48 ∧
      ∃ mask d2 d1 d0, m.delay = d2 ++ d1 ++ d0 ∧
        payload = [mask, m.number, m.root, m.scale, m.threshold, m.gate, m.options, m.glide, m.switchMode, d2, d1, d0] ++
          m.rules.toList.flatMap fun r =>
            [r.mode, r.primary, r.level, r.pan, r.flags, BitVec.ofNat 8 r.alternates.length] ++ r.alternates

/-- R60, R179: every scene of at most three alternates a rule is what the walk finds in the payload of its fields and
rules, under any group mask. -/
def Clause.EveryScenePayloadIsParsed : Prop :=
  ∀ (mask : Byte) (m : SceneMsg), (∀ v : Voice, (m.rules.get v).alternates.length ≤ 3) →
    parseScene ([mask, m.number, m.root, m.scale, m.threshold, m.gate, m.options, m.glide, m.switchMode,
        m.delay.extractLsb' 16 8, m.delay.extractLsb' 8 8, m.delay.extractLsb' 0 8] ++
      m.rules.toList.flatMap fun r =>
        [r.mode, r.primary, r.level, r.pan, r.flags, BitVec.ofNat 8 r.alternates.length] ++ r.alternates) = some m

/-- R60, R61, R62, R179: which payloads are SCENEs, and what is kept of one. -/
def Obligations.ScenePayloadsAreParsedThenClamped : Prop :=
  Clause.SceneWalkTakesTheWholePayload ∧ Clause.EveryScenePayloadIsParsed ∧ Clause.ClampingBringsFieldsIntoRange

/-- R66, R67: a pending AT_DELAY scene takes effect at the arrival that brings the clock to its due point. -/
def Clause.DelayedSceneTakesEffectAtItsDuePoint : Prop :=
  ∀ (s : State) (p : PendingScene), s.resetN = true → Owed.sceneDuePoint ∈ s.owed → s.scenes.pending = some p →
    p.condition = .atDelay s.clock →
    ∃ t, exec .sceneDuePoint s = .next t ∧
      State.SceneTakenEffect p.scene { s with owed := s.owed.erase .sceneDuePoint } t

/-- R60, R62, R63, R64, R65, R66, R67: an accepted SCENE, and the due point of a pending one. -/
def Obligations.ScenesTakeEffectWhenTheirSwitchSays : Prop :=
  Clause.SceneIsSwitchedInByItsMode ∧ Clause.DelayedSceneTakesEffectAtItsDuePoint

/-- R68, R69, R112, R118, R123: bypass-on sets the flag, removes every target, posts "no target" to every enabled voice
and places a voiceless record with the held note at once; a BYPASS_ON that finds the flag set changes nothing. -/
def Clause.BypassOnWithdrawsTheVoices : Prop :=
  ∀ s : State, s.ready →
    (s.scenes.bypass = true → exec .bypassOn s = .next s) ∧
    (s.scenes.bypass = false →
      ∃ t, exec .bypassOn s = .next t ∧
        t = { s with
          scenes := { s.scenes with bypass := true }
          alloc := { s.alloc with
            voices := t.alloc.voices, record := { live := s.follower.heldNote, entries := [] }, sincePlacement := 0 }
          channels := t.channels
          line := t.line } ∧
        LineControl.ClaimPlaced { live := s.follower.heldNote, entries := [] } s.line t.line ∧
        ∀ v : Voice, (t.voice v).bare ∧ (s.enabled v = true → (s.channel v).NoTargetPosted (t.channel v)) ∧
          (s.enabled v = false → t.channel v = s.channel v))

/-- R68, R69, R123: BYPASS_OFF clears the flag and does nothing else until the next decision. -/
def Clause.BypassOffClearsTheFlagAlone : Prop :=
  ∀ s : State, s.ready → exec .bypassOff s = .next { s with scenes := { s.scenes with bypass := false } }

/-- R68, R69, R123: BYPASS_ON and BYPASS_OFF. -/
def Obligations.BypassWithdrawsTheVoicesUntilCleared : Prop :=
  Clause.BypassOnWithdrawsTheVoices ∧ Clause.BypassOffClearsTheFlagAlone

/-! ### Grain renderer and arbiter -/

/-- R135: a grain holds one value for every captured sample closer to its mark than a period, in order of position: the
sample under a triangular window, rounded once. -/
def Clause.GrainIsTheTriangularWindow : Prop :=
  ∀ (ring : Cells Sample) (m : Mark), 1 ≤ m.period →
    (readGrain ring m).mark = m ∧
    ((readGrain ring m).samples.Pairwise fun a b => a.1 < b.1) ∧
    ∀ u w : Int, (u, w) ∈ (readGrain ring m).samples ↔
      ∃ j : Int, u = 16 * j - m.pos.toNat ∧ u.natAbs < m.period ∧
        w = roundHalfUp ((readRing ring (BitVec.ofInt 24 j)).toInt * ((m.period : Int) - u.natAbs)) m.period

/-- R137: a PLACE adds each sample, scaled by 4096 / k and rounded once, at the position it lands on, and leaves every
other sum as it was. -/
def Clause.PlaceAddsTheScaledGrain : Prop :=
  ∀ (o : Cells Int) (g : Grain) (mark : Pos16) (k : Nat) (p : Pos), Cells.wf 0 o = true →
    readOverlap (addGrain o g mark k) p = readOverlap o p +
      ((g.samples.filter fun x => decide ((landing mark x.1).toNat % 2048 = p.toNat % 2048)).map fun x =>
        roundHalfUp (x.2 * 4096) k).sum

/-- R135, R137: the position that an offset lands on, round-half-up((m + u) / 16); a grain's first position, where its
first sample lands; and a mark's oldest captured position, ceil((ms - Ps + 1) / 16), whose offset a grain's first sample
has. -/
def Clause.PositionsFollowTheirFormulas : Prop :=
  (∀ (mark : Pos16) (u : Int), landing mark u = BitVec.ofInt 24 (roundHalfUp ((mark.toNat : Int) + u) 16)) ∧
  (∀ (g : Grain) (mark : Pos16) (u w : Int) (rest : List (Int × Int)), g.samples = (u, w) :: rest →
    firstPosition g mark = landing mark u) ∧
  ∀ m : Mark, let j := ⌈((m.pos.toNat : ℚ) - m.period + 1) / 16⌉
    oldestSample m = BitVec.ofInt 24 j ∧
    ∀ (ring : Cells Sample) (mark : Pos16), 16 ≤ m.period →
      firstPosition (readGrain ring m) mark =
        BitVec.ofInt 24 (roundHalfUp ((mark.toNat : Int) + (16 * j - m.pos.toNat)) 16)

/-- R135, R137: what a FETCH reads, what a PLACE adds, and where. -/
def Obligations.GrainsAreWindowedThenScaled : Prop :=
  Clause.GrainIsTheTriangularWindow ∧ Clause.PlaceAddsTheScaledGrain ∧ Clause.PositionsFollowTheirFormulas

/-- R133: a mark is eligible where its position plus its period is at or before 16 times the stage clock, and its
distance from a target is the way from the one to the other, both modulo 2^28 (00_scope.md, R35). -/
def Clause.EligibilityAndDistanceFollowTheRule : Prop :=
  ∀ (clock : Pos) (target : Pos16) (m : Mark),
    (eligible clock m = true ↔
      ((BitVec.ofNat 28 (16 * clock.toNat)) - (m.pos + BitVec.ofNat 28 m.period)).toNat < 2 ^ 27) ∧
    ∀ k : Nat, k < 2 ^ 27 →
      (markDistance target m = k ↔ target = m.pos + BitVec.ofNat 28 k ∨ m.pos = target + BitVec.ofNat 28 k)

/-- R133: the choice takes an eligible mark that no eligible mark is nearer to the target than, the oldest of those
equally near, and takes none only where none is eligible. -/
def Clause.SourceChoiceTakesTheNearestEligibleMark : Prop :=
  ∀ (marks : List Mark) (clock : Pos) (target : Pos16),
    (chooseMark marks clock target = none ↔ ∀ m ∈ marks, eligible clock m = false) ∧
    ∀ m, chooseMark marks clock target = some m →
      eligible clock m = true ∧
      ∃ before after, marks = before ++ m :: after ∧
        (∀ x ∈ before, eligible clock x = true → markDistance target m < markDistance target x) ∧
        ∀ x ∈ after, eligible clock x = true → markDistance target m ≤ markDistance target x

/-- R137, R141, R150, R151: a due placement point asks for the PLACE of the current grain; with no current grain a READY
next grain becomes current and is asked for; with neither and no mark to choose, the cycle moves on by 2048 sixteenths
in silence. -/
def Clause.DuePlacementPointAsksForThePlace : Prop :=
  ∀ (v : Voice) (s : State) (p : Pos) (mark : Pos16), s.resetN = true → Owed.placementPointDue v ∈ s.owed →
    (s.channel v).placementPoint = some p → 0 ≤ (s.clock - p).toInt → (s.channel v).outputMark = some mark →
    (∀ g, (s.channel v).current = some g →
      ∃ b, exec (.placementPointDue v) s = .next (State.setChannel v { s.channel v with placementPoint := none }
          { s with owed := s.owed.erase (.placementPointDue v), arbiter := b }) ∧
        (s.arbiter.running = none → b.GrantedFrom (s.arbiter.list ++ [.place v g mark])) ∧
        (s.arbiter.running ≠ none → b = { s.arbiter with list := s.arbiter.list ++ [.place v g mark] })) ∧
    (∀ g, (s.channel v).current = none → (s.channel v).next = .ready g → (s.clock - firstPosition g mark).toInt < 0 →
      ∃ b, exec (.placementPointDue v) s = .next (State.setChannel v
          { s.channel v with current := some g, next := .empty, placementPoint := none }
          { s with owed := s.owed.erase (.placementPointDue v), arbiter := b }) ∧
        (s.arbiter.running = none → b.GrantedFrom (s.arbiter.list ++ [.place v g mark])) ∧
        (s.arbiter.running ≠ none → b = { s.arbiter with list := s.arbiter.list ++ [.place v g mark] })) ∧
    ((s.channel v).current = none → (s.channel v).next = .empty →
      chooseMark s.marks s.clock (mark + 2048 - 12288) = none →
      (s.clock - (((mark + 2048 - 2048) >>> 4).setWidth 24 - 64)).toInt < 0 →
      exec (.placementPointDue v) s = .next (State.setChannel v
        { s.channel v with
          stepInForce := if (s.voice v).postedStep.isSome then (s.voice v).postedStep else (s.channel v).stepInForce
          outputMark := some (mark + 2048)
          placementPoint := some (((mark + 2048 - 2048) >>> 4).setWidth 24 - 64) }
        { s with owed := s.owed.erase (.placementPointDue v) }))

/-- R133, R136, R141, R150: a placement point that comes due with no current grain and no READY one: the posted step is
taken, the output mark moves on by 2048, the placement point is set by the next register's period, and with an EMPTY
register a mark is chosen and its FETCH asked for. Where the new point is due as well the placement point is reached
again in the same event, and n bounds how often. -/
def Clause.SilentPlacementsRunUntilAPointAhead : Prop :=
  ∀ (v : Voice) (n : Nat) (s : State) (mark : Pos16), (s.channel v).outputMark = some mark →
    (s.channel v).current = none → (∀ g, (s.channel v).next ≠ .ready g) →
    let mark2 := mark + 2048
    let period := match (s.channel v).next with | .fetching m => m.period | _ => 2048
    let point : Pos := ((mark2 - BitVec.ofNat 28 period) >>> 4).setWidth 24 - 64
    let moved : Channel := { s.channel v with
      stepInForce := if (s.voice v).postedStep.isSome then (s.voice v).postedStep else (s.channel v).stepInForce
      outputMark := some mark2
      placementPoint := some point }
    ∃ s1, s.reachPlacementPoint v (n + 1) = (if 0 ≤ (s.clock - point).toInt then s1.reachPlacementPoint v n else s1) ∧
      (∀ m, (s.channel v).next = .fetching m → s1 = s.setChannel v moved) ∧
      ((s.channel v).next = .empty → chooseMark s.marks s.clock (mark2 - 12288) = none → s1 = s.setChannel v moved) ∧
      ∀ m, (s.channel v).next = .empty → chooseMark s.marks s.clock (mark2 - 12288) = some m →
        s1 = (s.setChannel v { moved with next := .fetching m }).requestFetch v m

/-- R137, R141, R142: PLACEMENT_POINT_DUE reaches the placement point, with room for 32767 repetitions at least; a READY
grain whose first position is due by then is dropped, and the cycle advances in the same event. The latter is the
model's reading of R141 (log 30). -/
def Clause.PlacementPointIsReachedByItsCommand : Prop :=
  ∀ (v : Voice) (s : State) (p : Pos), s.resetN = true → Owed.placementPointDue v ∈ s.owed →
    (s.channel v).placementPoint = some p → 0 ≤ (s.clock - p).toInt →
    let s1 : State := { s with owed := s.owed.erase (.placementPointDue v) }
    (∃ n, 32767 ≤ n ∧ exec (.placementPointDue v) s = .next (s1.reachPlacementPoint v (n + 1))) ∧
    ∀ (g : Grain) (mark : Pos16), (s.channel v).current = none → (s.channel v).next = .ready g →
      (s.channel v).outputMark = some mark → 0 ≤ (s.clock - firstPosition g mark).toInt → s.counters.drop ≤ 65535 →
      ∃ n, 32767 ≤ n ∧ exec (.placementPointDue v) s = .next (State.advanceCycle v (n + 1) g
        (State.setChannel v { s.channel v with current := some g, next := .empty, placementPoint := none }
          { s1 with counters := { s.counters with drop := min 65535 (s.counters.drop + 1) } }))

/-- R137, R141, R142, R150, R151: what a due placement point brings, in every state of the two registers. -/
def Obligations.DuePlacementPointsPlaceOrPassInSilence : Prop :=
  Clause.DuePlacementPointAsksForThePlace ∧ Clause.SilentPlacementsRunUntilAPointAhead ∧
    Clause.PlacementPointIsReachedByItsCommand

/-- R135, R136, R151, R152, R153: a FETCH's completion makes the next register READY with the grain of its mark, in both
registers where the FETCH was merged; one that was withdrawn changes nothing at the channels; then the next job is
granted. -/
def Clause.FetchCompletionFillsTheNextRegister : Prop :=
  ∀ (s : State) (o : Voice) (q : Option Voice) (m : Mark) (f : Fate), s.ready →
    s.arbiter.running = some { job := .fetch o q m, fate := f } →
    ∃ b t, exec .fetchCompletion s = .next t ∧ b.GrantedFrom s.arbiter.list ∧
      t = { s with arbiter := b, channels := t.channels } ∧
      (f ≠ .live → t.channels = s.channels) ∧
      (f = .live → ∀ v : Voice,
        ((v = o ∨ some v = q) → (∀ m', (s.channel v).next = .fetching m' → m'.pos = m.pos →
          t.channel v = { s.channel v with next := .ready (readGrain s.ring m) })) ∧
        ((v ≠ o ∧ some v ≠ q) → t.channel v = s.channel v))

/-- R135, R136, R153: a FETCH whose grain's oldest sample is overwritten is withdrawn, waiting or running, and the next
register returns to EMPTY, of both channels where the FETCH is merged. -/
def Clause.OverwrittenFetchIsWithdrawn : Prop :=
  ∀ (v : Voice) (s : State) (m : Mark), s.resetN = true → Owed.fetchWithdrawal v ∈ s.owed →
    (s.channel v).next = .fetching m → 4096 ≤ (s.clock - 1 - oldestSample m).toInt →
    (s.arbiter.list.filter (Job.fetches v m) = [.fetch v none m] →
      (∀ r, s.arbiter.running = some r → r.job.fetches v m = false) →
      exec (.fetchWithdrawal v) s = .next (State.setChannel v { s.channel v with next := .empty }
        { s with
          owed := s.owed.erase (.fetchWithdrawal v)
          arbiter := { s.arbiter with list := s.arbiter.list.filter fun j => !j.fetches v m } })) ∧
    (s.arbiter.list.filter (Job.fetches v m) = [] →
      s.arbiter.running = some { job := .fetch v none m, fate := .live } →
      exec (.fetchWithdrawal v) s = .next (State.setChannel v { s.channel v with next := .empty }
        { s with
          owed := s.owed.erase (.fetchWithdrawal v)
          arbiter := { s.arbiter with running := some { job := .fetch v none m, fate := .discarded } } })) ∧
    (∀ (o q : Voice) (m' : Mark), (v = o ∨ v = q) → o ≠ q →
      s.arbiter.list.filter (Job.fetches v m) = [.fetch o (some q) m] →
      (∀ r, s.arbiter.running = some r → r.job.fetches v m = false) → m'.pos = m.pos →
      (∀ w, (w = o ∨ w = q) → w ≠ v → (s.channel w).next = .fetching m') →
      ∃ t, exec (.fetchWithdrawal v) s = .next t ∧
        t = { s with
          owed := s.owed.erase (.fetchWithdrawal v)
          arbiter := { s.arbiter with list := s.arbiter.list.filter fun j => !j.fetches v m }
          channels := t.channels } ∧
        ∀ w, t.channel w = if w = o ∨ w = q then { s.channel w with next := .empty } else s.channel w) ∧
    (∀ (o q : Voice) (m' : Mark), (v = o ∨ v = q) → o ≠ q → s.arbiter.list.filter (Job.fetches v m) = [] →
      s.arbiter.running = some { job := .fetch o (some q) m, fate := .live } → m'.pos = m.pos →
      (∀ w, (w = o ∨ w = q) → w ≠ v → (s.channel w).next = .fetching m') →
      ∃ t, exec (.fetchWithdrawal v) s = .next t ∧
        t = { s with
          owed := s.owed.erase (.fetchWithdrawal v)
          arbiter := { s.arbiter with running := some { job := .fetch o (some q) m, fate := .discarded } }
          channels := t.channels } ∧
        ∀ w, t.channel w = if w = o ∨ w = q then { s.channel w with next := .empty } else s.channel w)

/-- R135, R136, R152, R153: how a FETCH ends. -/
def Obligations.FetchFillsItsRegisterOrIsWithdrawn : Prop :=
  Clause.FetchCompletionFillsTheNextRegister ∧ Clause.OverwrittenFetchIsWithdrawn

/-- R133, R134, R137, R138, R139, R143, R151, R152: a PLACE's completion with the next grain READY adds its grain,
promotes the next, takes the posted step, advances the output mark by the placed grain's spacing, sets the placement
point 64 before the new first position, and fills the emptied register: by reuse where the choice names the very mark
promoted, by no one where none can be chosen, by a FETCH otherwise. -/
def Clause.ReadyGrainIsPromotedAtTheCompletion : Prop :=
  ∀ (s : State) (v : Voice) (g g2 : Grain) (mark mark2 : Pos16) (k k2 : Nat), s.ready →
    s.arbiter.running = some { job := .place v g mark, fate := .live } → (s.channel v).cycleRunning = true →
    (s.channel v).next = .ready g2 → (s.channel v).stepInForce = some k → (s.channel v).outputMark = some mark →
    k2 = (s.voice v).postedStep.getD k →
    mark2 = mark + BitVec.ofNat 28
      (if g.mark.voiced = true then (roundHalfUp (g.mark.period * 4096) k2).toNat else g.mark.period) →
    (s.clock - firstPosition g2 mark2).toInt < 0 → (s.clock - (firstPosition g2 mark2 - 64)).toInt < 0 →
    let advanced : Channel := { s.channel v with
      overlap := addGrain (s.channel v).overlap g mark (if g.mark.voiced = true then k else 4096)
      rampStart := if (s.channel v).rampStart = none then some (firstPosition g mark) else (s.channel v).rampStart
      current := some g2
      next := .empty
      stepInForce := some k2
      outputMark := some mark2
      placementPoint := some (firstPosition g2 mark2 - 64) }
    let choice := chooseMark s.marks s.clock (mark2 - 12288)
    (choice = none → ∃ b, b.GrantedFrom s.arbiter.list ∧
      exec .placeCompletion s = .next (State.setChannel v advanced { s with arbiter := b })) ∧
    (∀ m, choice = some m → m.pos = g2.mark.pos → ∃ b, b.GrantedFrom s.arbiter.list ∧
      exec .placeCompletion s = .next (State.setChannel v { advanced with next := .ready g2 } { s with arbiter := b })) ∧
    (∀ m, choice = some m → m.pos ≠ g2.mark.pos → s.arbiter.list.any (Job.mergesWith v m) = false →
      ∃ b, b.GrantedFrom (s.arbiter.list ++ [.fetch v none m]) ∧
        exec .placeCompletion s = .next (State.setChannel v { advanced with next := .fetching m } { s with arbiter := b }))

/-- R138, R140, R142: a PLACE's completion that finds the next register FETCHING counts a REPEAT and keeps the current
grain; the cycle advances at that grain's spacing and asks for nothing. A PLACE that was dropped while it ran adds
nothing and sets no ramp start; its cycle advances in the same way. -/
def Clause.PromotionWithoutAReadyGrainRepeats : Prop :=
  ∀ (s : State) (v : Voice) (g : Grain) (m : Mark) (mark mark2 : Pos16) (k k2 : Nat) (f : Fate), s.ready →
    s.arbiter.running = some { job := .place v g mark, fate := f } → (f = .live ∨ f = .dropped) →
    (s.channel v).cycleRunning = true →
    (s.channel v).current = some g → (s.channel v).next = .fetching m → (s.channel v).stepInForce = some k →
    (s.channel v).outputMark = some mark → k2 = (s.voice v).postedStep.getD k →
    mark2 = mark + BitVec.ofNat 28
      (if g.mark.voiced = true then (roundHalfUp (g.mark.period * 4096) k2).toNat else g.mark.period) →
    (s.clock - firstPosition g mark2).toInt < 0 → (s.clock - (firstPosition g mark2 - 64)).toInt < 0 →
    s.counters.repeats ≤ 65535 →
    ∃ b, b.GrantedFrom s.arbiter.list ∧
      exec .placeCompletion s = .next (State.setChannel v
        { s.channel v with
          overlap :=
            if f = .live then addGrain (s.channel v).overlap g mark (if g.mark.voiced = true then k else 4096)
            else (s.channel v).overlap
          rampStart :=
            if f = .live ∧ (s.channel v).rampStart = none then some (firstPosition g mark) else (s.channel v).rampStart
          stepInForce := some k2
          outputMark := some mark2
          placementPoint := some (firstPosition g mark2 - 64) }
        { s with arbiter := b, counters := { s.counters with repeats := min 65535 (s.counters.repeats + 1) } })

/-- R142, R144, R153: a PLACE that was withdrawn changes nothing at its completion, and neither does one that was
dropped, where its cycle has been stopped meanwhile. -/
def Clause.WithdrawnPlaceChangesNothing : Prop :=
  ∀ (s : State) (v : Voice) (g : Grain) (mark : Pos16) (f : Fate), s.ready →
    s.arbiter.running = some { job := .place v g mark, fate := f } →
    (f = .discarded ∨ (f = .dropped ∧ (s.channel v).cycleRunning = false)) →
    ∃ b, b.GrantedFrom s.arbiter.list ∧ exec .placeCompletion s = .next { s with arbiter := b }

/-- R137, R139, R145: a PLACE that a hush overtook adds its grain and schedules nothing; as the first PLACE completed
since its voice's cycle started that adds its grain it sets the ramp start, where that is absent. So it is with the
cycle stopped and, where it completes after a restart, in the restarted cycle; the latter is the model's reading (log
12). -/
def Clause.OvertakenPlaceAddsItsGrain : Prop :=
  ∀ (s : State) (v : Voice) (g : Grain) (mark : Pos16) (k : Nat), s.ready →
    s.arbiter.running = some { job := .place v g mark, fate := .addsOnly } → (s.channel v).stepInForce = some k →
    ∃ b, b.GrantedFrom s.arbiter.list ∧
      exec .placeCompletion s = .next (State.setChannel v
        { s.channel v with
          overlap := addGrain (s.channel v).overlap g mark (if g.mark.voiced = true then k else 4096)
          rampStart := if (s.channel v).rampStart = none then some (firstPosition g mark) else (s.channel v).rampStart }
        { s with arbiter := b })

/-- R133, R134, R137 to R140, R142 to R145, R151 to R153: a PLACE that completes with a READY next grain, without one,
or overtaken. What a hush-overtaken one does in a restarted cycle is the model's reading (log 12); that a ramp start set
at a re-entry stays at the first completion after it is its choice (log 34). -/
def Obligations.PlaceCompletionAdvancesTheCycle : Prop :=
  Clause.ReadyGrainIsPromotedAtTheCompletion ∧ Clause.PromotionWithoutAReadyGrainRepeats ∧
    Clause.WithdrawnPlaceChangesNothing ∧ Clause.OvertakenPlaceAddsItsGrain

/-- R83, R133, R134, R136, R138, R140, R142, R143, R150: one advance of the grain cycle after `placed`, in every state
of the next register. A READY grain is promoted, else the current one stays and a REPEAT is counted; the posted step is
taken; the output mark moves on by the spacing of the grain just placed; the placement point lies 64 before the new
first position; an EMPTY register is filled by reuse, by a FETCH or by nothing. Then the grain is dropped and the cycle
advanced again where its first position is due, and its PLACE is asked for where its placement point is. n bounds the
advances. -/
def Clause.AdvanceTakesItsStepsInOrder : Prop :=
  ∀ (v : Voice) (n : Nat) (s : State) (placed cur : Grain) (next2 : NextReg) (repeats k2 : Nat) (mark mark2 : Pos16)
    (k : Nat), (s.channel v).outputMark = some mark → (s.channel v).stepInForce = some k →
    k2 = (s.voice v).postedStep.getD k →
    mark2 = mark + BitVec.ofNat 28
      (if placed.mark.voiced = true then (roundHalfUp (placed.mark.period * 4096) k2).toNat else placed.mark.period) →
    s.counters.repeats ≤ 65535 → s.counters.drop ≤ 65535 →
    (((s.channel v).next = .ready cur ∧ next2 = .empty ∧ repeats = s.counters.repeats) ∨
      ((∀ g, (s.channel v).next ≠ .ready g) ∧ (s.channel v).current = some cur ∧ next2 = (s.channel v).next ∧
        repeats = min 65535 (s.counters.repeats + 1))) →
    let first := firstPosition cur mark2
    let choice := chooseMark s.marks s.clock (mark2 - 12288)
    let base : State := { s with counters := { s.counters with repeats := repeats } }
    let moved : Channel := { s.channel v with
      current := some cur, next := next2, stepInForce := some k2, outputMark := some mark2,
      placementPoint := some (first - 64) }
    ∃ s1, ((next2 ≠ .empty ∨ choice = none) → s1 = base.setChannel v moved) ∧
      (∀ m, next2 = .empty → choice = some m → m.pos = cur.mark.pos →
        s1 = base.setChannel v { moved with next := .ready cur }) ∧
      (∀ m, next2 = .empty → choice = some m → m.pos ≠ cur.mark.pos →
        s1 = (base.setChannel v { moved with next := .fetching m }).requestFetch v m) ∧
      s.advanceCycle v (n + 1) placed =
        if 0 ≤ (s.clock - first).toInt then
          State.advanceCycle v n cur { s1 with counters := { s1.counters with drop := min 65535 (s.counters.drop + 1) } }
        else if 0 ≤ (s.clock - (first - 64)).toInt then
          State.request (.place v cur mark2) (s1.setChannel v { s1.channel v with placementPoint := none })
        else s1

/-- R138, R142: the completion of a PLACE that its owner awaits adds its grain, unless it was dropped, and advances the
cycle before the grant; a waiting PLACE that is dropped is removed and the cycle advances at once. There is room for
32767 advances at least. -/
def Clause.CompletionsAndDropsAdvanceTheCycle : Prop :=
  ∀ (s : State) (v : Voice) (g : Grain) (mark : Pos16) (k : Nat), s.resetN = true → (s.channel v).cycleRunning = true →
    (s.channel v).stepInForce = some k →
    (∀ f, s.owed = [] → s.arbiter.running = some { job := .place v g mark, fate := f } → (f = .live ∨ f = .dropped) →
      let added : State := s.setChannel v { s.channel v with
        overlap :=
          if f = .live then addGrain (s.channel v).overlap g mark (if g.mark.voiced = true then k else 4096)
          else (s.channel v).overlap
        rampStart :=
          if f = .live ∧ (s.channel v).rampStart = none then some (firstPosition g mark) else (s.channel v).rampStart }
      ∃ n b, 32767 ≤ n ∧ b.GrantedFrom (added.advanceCycle v (n + 1) g).arbiter.list ∧
        exec .placeCompletion s = .next { added.advanceCycle v (n + 1) g with arbiter := b }) ∧
    (Owed.grainDrop v ∈ s.owed → 0 ≤ (s.clock - firstPosition g mark).toInt → s.counters.drop ≤ 65535 →
      s.arbiter.list.filter (Job.isPlaceOf v) = [.place v g mark] →
      (∀ r, s.arbiter.running = some r → r.job.isPlaceOf v = false) →
      ∃ n, 32767 ≤ n ∧ exec (.grainDrop v) s = .next (State.advanceCycle v (n + 1) g
        { s with
          owed := s.owed.erase (.grainDrop v)
          arbiter := { s.arbiter with list := s.arbiter.list.erase (.place v g mark) }
          counters := { s.counters with drop := min 65535 (s.counters.drop + 1) } }))

/-- R83, R133, R134, R136 to R140, R142, R143, R150: the advance of the grain cycle, whatever its registers hold. -/
def Obligations.CycleAdvancesWhateverItsRegistersHold : Prop :=
  Clause.AdvanceTakesItsStepsInOrder ∧ Clause.CompletionsAndDropsAdvanceTheCycle

/-- R140, R142: a grain whose first position is due before its PLACE has completed is dropped: a running PLACE will add
nothing; a waiting one is removed and the cycle advances at once, counting a REPEAT where the next grain is not READY.
A running one that a hush has overtaken is dropped too, and its completion will change nothing: that is the model's
reading of R142 and R145 (log 12). -/
def Obligations.LateGrainIsDropped : Prop :=
  ∀ (s : State) (v : Voice) (g : Grain) (mark : Pos16), s.resetN = true → Owed.grainDrop v ∈ s.owed →
    0 ≤ (s.clock - firstPosition g mark).toInt → s.counters.drop ≤ 65535 → s.counters.repeats ≤ 65535 →
    (s.arbiter.running = some { job := .place v g mark, fate := .live } →
      (∀ j ∈ s.arbiter.list, j.isPlaceOf v = false) →
      exec (.grainDrop v) s = .next { s with
        owed := s.owed.erase (.grainDrop v)
        arbiter := { s.arbiter with running := some { job := .place v g mark, fate := .dropped } }
        counters := { s.counters with drop := min 65535 (s.counters.drop + 1) } }) ∧
    (s.arbiter.running = some { job := .place v g mark, fate := .addsOnly } →
      (∀ j ∈ s.arbiter.list, j.isPlaceOf v = false) →
      exec (.grainDrop v) s = .next { s with
        owed := s.owed.erase (.grainDrop v)
        arbiter := { s.arbiter with running := some { job := .place v g mark, fate := .discarded } }
        counters := { s.counters with drop := min 65535 (s.counters.drop + 1) } }) ∧
    (∀ (m : Mark) (mark2 : Pos16) (k k2 : Nat), s.arbiter.list.filter (Job.isPlaceOf v) = [.place v g mark] →
      (∀ r, s.arbiter.running = some r → r.job.isPlaceOf v = false) → (s.channel v).cycleRunning = true →
      (s.channel v).current = some g → (s.channel v).next = .fetching m → (s.channel v).stepInForce = some k →
      (s.channel v).outputMark = some mark → k2 = (s.voice v).postedStep.getD k →
      mark2 = mark + BitVec.ofNat 28
        (if g.mark.voiced = true then (roundHalfUp (g.mark.period * 4096) k2).toNat else g.mark.period) →
      (s.clock - firstPosition g mark2).toInt < 0 → (s.clock - (firstPosition g mark2 - 64)).toInt < 0 →
      exec (.grainDrop v) s = .next (State.setChannel v
        { s.channel v with
          stepInForce := some k2
          outputMark := some mark2
          placementPoint := some (firstPosition g mark2 - 64) }
        { s with
          owed := s.owed.erase (.grainDrop v)
          arbiter := { s.arbiter with list := s.arbiter.list.erase (.place v g mark) }
          counters := { s.counters with
            drop := min 65535 (s.counters.drop + 1), repeats := min 65535 (s.counters.repeats + 1) } }))

/-- R139: an ENTERING voice whose ramp count is 256 becomes SOUNDING. -/
def Clause.FullRampSounds : Prop :=
  ∀ (v : Voice) (s : State), s.resetN = true → Owed.enteringRampFull v ∈ s.owed → (s.channel v).state = .entering →
    (s.channel v).ramp = 256 →
    exec (.enteringRampFull v) s = .next (State.setChannel v { s.channel v with state := .sounding }
      { s with owed := s.owed.erase (.enteringRampFull v) })

/-- R130, R136, R144, R150, R153: a LEAVING voice whose ramp count is 0 stops its cycle: its channel is silent and OFF
or PARKED by its rule, its waiting jobs are gone, its running job will be discarded, a merged FETCH, waiting or running,
stays for the partner alone, and every other job stays. -/
def Clause.RampOutStopsTheCycle : Prop :=
  ∀ (v : Voice) (s : State), s.resetN = true → Owed.cycleStop v ∈ s.owed → (s.channel v).state = .leaving →
    (s.channel v).ramp = 0 → (∀ o q m, Job.fetch o (some q) m ∈ s.arbiter.list → o ≠ q) →
    ∃ b, exec (.cycleStop v) s = .next (State.setChannel v
        (silentChannel (if (s.rule v).mode = .off then .off else .parked))
        { s with owed := s.owed.erase (.cycleStop v), arbiter := b }) ∧
      (∀ j ∈ b.list, j.isPlaceOf v = false ∧ j.isFetchFor v = false) ∧
      (∀ j, j.isPlaceOf v = false → j.isFetchFor v = false →
        (j ∈ b.list ↔ j ∈ s.arbiter.list ∨ ∃ q m, j = .fetch q none m ∧
          (Job.fetch v (some q) m ∈ s.arbiter.list ∨ Job.fetch q (some v) m ∈ s.arbiter.list))) ∧
      (∀ r, s.arbiter.running = some r → (r.job.isPlaceOf v = true ∨ ∃ m, r.job = .fetch v none m) →
        b.running = some { r with fate := .discarded }) ∧
      (∀ q m f, (s.arbiter.running = some { job := .fetch v (some q) m, fate := f } ∨
          (q ≠ v ∧ s.arbiter.running = some { job := .fetch q (some v) m, fate := f })) →
        b.running = some { job := .fetch q none m, fate := f }) ∧
      (∀ r, s.arbiter.running = some r → r.job.isPlaceOf v = false → r.job.isFetchFor v = false → b.running = some r) ∧
      (s.arbiter.running = none → b.running = none)

/-- R139, R144: the two ends of a ramp. -/
def Obligations.RampEndsSoundOrStopTheVoice : Prop :=
  Clause.FullRampSounds ∧ Clause.RampOutStopsTheCycle

/-- R132, R133, R150: the cycle's start of a PARKED voice, with the ramp at 0 and an empty overlap buffer, and its
restart in a LEAVING voice whose cycle has stopped, which keeps both: the posted step in force, the nearest eligible
mark to 640 samples behind asked for, the output mark 128 samples and a period ahead, and the placement point 64 ahead.
-/
def Clause.TargetStartsOrRestartsTheCycle : Prop :=
  ∀ (v : Voice) (s : State) (gliding : Bool) (ramp : Nat) (sums : Cells Int),
    (((s.channel v).state = .parked ∧ ramp = 0 ∧ sums = []) ∨
      ((s.channel v).state = .leaving ∧ (s.channel v).cycleRunning = false ∧ ramp = (s.channel v).ramp ∧
        sums = (s.channel v).overlap)) →
    let choice := chooseMark s.marks s.clock (s.clock - 640).sixteenths
    let started : Channel :=
      { silentChannel .entering with
        stepInForce := (s.voice v).postedStep, cycleRunning := true, ramp := ramp, overlap := sums
        placementPoint := some (s.clock + 64) }
    (choice = none → s.postTarget v gliding = s.setChannel v
      { started with outputMark := some ((s.clock + 128).sixteenths + 2048) }) ∧
    ∀ m, choice = some m →
      s.postTarget v gliding = State.requestFetch v m (s.setChannel v
        { started with
          outputMark := some ((s.clock + 128).sixteenths + BitVec.ofNat 28 m.period), next := .fetching m })

/-- R129, R139: a target posted to a voice whose cycle neither starts nor restarts: nothing in OFF and ENTERING;
SOUNDING or GLIDING by the glide record in those two; and re-entry from LEAVING while the cycle runs, with the leave
rate 1 again and the rise from the newest due position on. That a PLACE completed later does not replace the ramp start
set here is the model's choice (log 34). -/
def Clause.TargetMovesTheVoiceByItsTable : Prop :=
  ∀ (v : Voice) (s : State) (gliding : Bool), let c := s.channel v
    ((c.state = .off ∨ c.state = .entering) → s.postTarget v gliding = s) ∧
    ((c.state = .sounding ∨ c.state = .gliding) → s.postTarget v gliding =
      s.setChannel v { c with state := if gliding = true then .gliding else .sounding }) ∧
    (c.state = .leaving → c.cycleRunning = true → s.postTarget v gliding =
      s.setChannel v { c with state := .entering, leaveRate := 1, rampStart := some s.clock })

/-- R136, R150: a FETCH request merges into the partner's waiting FETCH of the same mark position, owned by the lower
voice; a request that finds none is a job of its own, granted at once where the unit is FREE. -/
def Clause.PairFetchesMerge : Prop :=
  (∀ (v : Voice) (m m' : Mark) (s : State) (before after : List Job), m'.pos = m.pos →
    s.arbiter.list = before ++ .fetch v.partner none m' :: after →
    (∀ j ∈ before ++ after, j.isFetchFor v.partner = false) →
    s.requestFetch v m = { s with arbiter := { s.arbiter with
      list := before ++ .fetch (lowerVoice v) (some (higherVoice v)) m' :: after } } ∧
    (lowerVoice v).index + 1 = (higherVoice v).index ∧ (v = lowerVoice v ∨ v = higherVoice v)) ∧
  ∀ (v : Voice) (m : Mark) (s : State),
    (∀ m', m'.pos = m.pos → Job.fetch v.partner none m' ∉ s.arbiter.list) →
    ∃ b, s.requestFetch v m = { s with arbiter := b } ∧
      (s.arbiter.running = none → b.GrantedFrom (s.arbiter.list ++ [.fetch v none m])) ∧
      (s.arbiter.running ≠ none → b = { s.arbiter with list := s.arbiter.list ++ [.fetch v none m] })

/-- R129, R132, R133, R136, R139, R150: the choice of a source mark, what a posted target does to a voice in each state,
and the pair's merged FETCH. -/
def Obligations.PostedTargetsMoveTheVoice : Prop :=
  Clause.EligibilityAndDistanceFollowTheRule ∧ Clause.SourceChoiceTakesTheNearestEligibleMark ∧
    Clause.TargetStartsOrRestartsTheCycle ∧ Clause.TargetMovesTheVoiceByItsTable ∧ Clause.PairFetchesMerge

/-! ### Stage line: receiver -/

/-- R9, R161, R168: a start bit in READY begins a frame: the stage clock is its arrival capture, the idle time is 0, and
whether this station was SENDING is kept. That it is taken whatever level the line stands at is the model's choice (log
37). -/
def Clause.StartBitInReadyBeginsAFrame : Prop :=
  ∀ s : State, s.ready → s.line.receiver = .ready →
    exec .frameStart s = .next { s with line := { s.line with
      receiver := .receiving [] s.clock (decide (s.line.transmitter = .sending)), rx := .character [], idle := 0 } }

/-- R159, R161: a start bit while the receiver is not READY sets the idle time to 0 and leaves the receiver where it is;
in READY it is FRAME_START that begins a frame, and in BREAK the line is at space (log 2). That it is taken whatever
level the line stands at is the model's choice (log 37). -/
def Clause.StartBitRestartsTheIdleTime : Prop :=
  ∀ s : State, s.ready →
    (s.line.receiver ≠ .ready → s.line.receiver ≠ .breaking →
      exec .startBit s = .next { s with line := { s.line with rx := .character [], idle := 0 } }) ∧
    ((s.line.receiver = .ready ∨ s.line.receiver = .breaking) → exec .startBit s = .next s)

/-- R59, R158, R159, R162, R165: a complete character restarts the idle time; in RECEIVING it joins the frame, unless
the header, the length byte, the address byte or the count makes the receiver skip. R165 tests the first payload
character; that the third character is tested also where the length byte is 0, and so no payload character comes, is the
model's choice (log 9). That in READY and in BREAK, where no character can complete, it puts the line at mark and
restarts the idle time is the model's choice too (log 36), and so is that a character is taken where no start bit has
been given before it (log 37). -/
def Obligations.CharacterJoinsTheFrameOrSkips : Prop :=
  ∀ (c : Byte) (s : State), s.ready → s.counters.badFrame ≤ 65535 →
    let marked : LineControl := { s.line with rx := .mark, spaceRun := 0, idle := 0 }
    let bad := { s with
      line := { marked with receiver := .skippingError }
      counters := { s.counters with badFrame := min 65535 (s.counters.badFrame + 1) } }
    let skipped := fun h : Byte => { s with line := { marked with receiver := .skippingGroup (h.setWidth 4) } }
    ((∀ chars p ws, s.line.receiver ≠ .receiving chars p ws) →
      exec (.characterReceived c) s = .next { s with line := marked }) ∧
    ∀ (chars : List Byte) (p : Pos) (ws : Bool), s.line.receiver = .receiving chars p ws →
      let joined := { s with line := { marked with receiver := .receiving (chars ++ [c]) p ws } }
      (chars = [] → exec (.characterReceived c) s = .next (if c.toNat / 16 = 5 then skipped c else joined)) ∧
      (∀ h, chars = [h] → exec (.characterReceived c) s = .next (if 60 < c.toNat then bad else joined)) ∧
      (∀ h l, chars = [h, l] → exec (.characterReceived c) s = .next
        (if ((h.toNat / 16 = 2 ∨ h.toNat / 16 = 3) ∧ c.getLsbD s.straps.group.toNat = false) ∨
            (h.toNat / 16 = 4 ∧ c.toNat ≠ s.straps.id.toNat)
          then skipped h else joined)) ∧
      (3 ≤ chars.length → exec (.characterReceived c) s = .next (if chars.length < 64 then joined else bad))

/-- R161, R163, R164: the line's return to mark after space: a framing error in RECEIVING, the end of a break in BREAK,
and a restart of the idle time alone elsewhere; in READY the line has not left mark (log 2). That it is taken so also
where the line stands at mark already, or inside a character, is the model's choice (log 37). -/
def Clause.ReturnToMarkEndsTheSpace : Prop :=
  ∀ s : State, s.ready → s.counters.badFrame ≤ 65535 →
    let marked : LineControl := { s.line with rx := .mark, spaceRun := 0, idle := 0 }
    (∀ chars p ws, s.line.receiver = .receiving chars p ws → exec .lineReturnToMark s = .next { s with
      line := { marked with receiver := .skippingError }
      counters := { s.counters with badFrame := min 65535 (s.counters.badFrame + 1) } }) ∧
    (s.line.receiver = .breaking →
      exec .lineReturnToMark s = .next { s with line := { marked with receiver := .gapWait } }) ∧
    ((s.line.receiver = .gapWait ∨ s.line.receiver = .skippingError ∨ ∃ id, s.line.receiver = .skippingGroup id) →
      exec .lineReturnToMark s = .next { s with line := marked }) ∧
    (s.line.receiver = .ready → exec .lineReturnToMark s = .next s)

/-- R159, R161, R163: start bits and returns to mark, in every state of the receiver. -/
def Obligations.LineLevelsMoveTheReceiver : Prop :=
  Clause.StartBitInReadyBeginsAFrame ∧ Clause.StartBitRestartsTheIdleTime ∧ Clause.ReturnToMarkEndsTheSpace

/-- R161, R162, R165, R166, R167: a frame boundary brings the receiver to READY; it leaves last-sender as it stands
after GAP_WAIT and after SKIPPING for an ERROR, takes the kept sender after SKIPPING for a GROUP, and counts BADFRAME
for a frame that is not whole, which changes nothing else. In GAP_WAIT and SKIPPING it may follow a start bit, since no
step marks the end of a character there. The idle time gathers at mark alone, so in a space, and inside a character that
is being assembled, no boundary comes; nor does one in READY, which has passed it, or in BREAK (log 2). -/
def Clause.FrameBoundaryReadiesTheReceiver : Prop :=
  ∀ s : State, s.ready → s.counters.badFrame ≤ 65535 →
    let readied : LineControl := { s.line with receiver := .ready, rx := .mark, spaceRun := 0, idle := 12 }
    (s.line.rx = .space → exec .frameBoundary s = .next s) ∧
    ((s.line.receiver = .ready ∨ s.line.receiver = .breaking) → exec .frameBoundary s = .next s) ∧
    (∀ chars p ws, s.line.rx ≠ .mark → s.line.receiver = .receiving chars p ws → exec .frameBoundary s = .next s) ∧
    (s.line.rx ≠ .space → (s.line.receiver = .gapWait ∨ s.line.receiver = .skippingError) →
      exec .frameBoundary s = .next { s with line := readied }) ∧
    (∀ id, s.line.rx ≠ .space → s.line.receiver = .skippingGroup id →
      exec .frameBoundary s = .next { s with line := { readied with lastSender := id } }) ∧
    (∀ chars p ws, s.line.rx = .mark → s.line.receiver = .receiving chars p ws → isWhole chars = false →
      exec .frameBoundary s = .next { s with
        line := readied
        counters := { s.counters with badFrame := min 65535 (s.counters.badFrame + 1) } })

/-- R166, R167, R168: a whole frame sets last-sender; one that bears the own id and began while this station was not
SENDING sets the clash flag and counts CLASH; then it is routed by its kind: accepted by its block (owed until the
block takes it, log 1), counted BADFRAME where it is malformed, or discarded. -/
def Clause.WholeFrameIsRoutedByItsKind : Prop :=
  ∀ (s : State) (h l : Byte) (rest : List Byte) (p : Pos) (ws : Bool), s.ready →
    s.line.rx = .mark → s.line.receiver = .receiving (h :: l :: rest) p ws → isWhole (h :: l :: rest) = true →
    s.counters.badFrame ≤ 65535 → s.counters.clash ≤ 65535 →
    let own := decide (h.setWidth 4 = s.straps.id ∧ ws = false)
    let judged := { s with
      line := { s.line with
        receiver := .ready, spaceRun := 0, idle := 12, lastSender := h.setWidth 4,
        clash := s.line.clash || own }
      counters := { s.counters with
        clash := if own = true then min 65535 (s.counters.clash + 1) else s.counters.clash } }
    let bad := { judged with
      counters := { judged.counters with badFrame := min 65535 (s.counters.badFrame + 1) } }
    let payload := rest.take l.toNat
    (h.toNat / 16 = 1 → ∀ m, parseClaim (h.setWidth 4) payload = some m → h.setWidth 4 ≠ s.straps.id →
      exec .frameBoundary s = .next { judged with owed := [.accept (.claim m)] }) ∧
    (h.toNat / 16 = 1 → ∀ m, parseClaim (h.setWidth 4) payload = some m → h.setWidth 4 = s.straps.id →
      exec .frameBoundary s = .next judged) ∧
    (h.toNat / 16 = 1 → parseClaim (h.setWidth 4) payload = none → exec .frameBoundary s = .next bad) ∧
    (h.toNat / 16 = 2 → ∀ m, parseScene payload = some m →
      exec .frameBoundary s = .next { judged with owed := [.accept (.scene p m)] }) ∧
    (h.toNat / 16 = 2 → parseScene payload = none → exec .frameBoundary s = .next bad) ∧
    (h.toNat / 16 = 3 → ∀ mask action, payload = [mask, action] → exec .frameBoundary s = .next
      (if action.toNat = 1 then { judged with owed := [.accept .bypassOn] }
        else if action.toNat = 2 then { judged with owed := [.accept .bypassOff] } else judged)) ∧
    (h.toNat / 16 = 4 → ∀ target options, payload = [target, options] → exec .frameBoundary s =
      .next { judged with owed := [.accept (.query (options.getLsbD 0))] }) ∧
    ((h.toNat / 16 = 3 ∨ h.toNat / 16 = 4) → payload.length ≠ 2 → exec .frameBoundary s = .next bad) ∧
    ((h.toNat / 16 = 0 ∨ 5 ≤ h.toNat / 16) → exec .frameBoundary s = .next judged)

/-- R161, R162, R165, R166, R167, R168: a frame boundary, in every state of the receiver. -/
def Obligations.FrameBoundaryJudgesTheFrame : Prop :=
  Clause.FrameBoundaryReadiesTheReceiver ∧ Clause.WholeFrameIsRoutedByItsKind

/-- R169, R180: an accepted QUERY puts its request with its clear option in the REPORT slot, replacing any request
there, and wakes an IDLE transmitter. That a frame in hand is told of it is the model's form of a slot's identity (log
11). -/
def Clause.QueryPlacesAReportRequest : Prop :=
  ∀ (clear : Bool) (s : State), s.ready →
    exec (.query clear) s = .next { s with line := { s.line with
      reportSlot := some clear
      frameInHand := s.line.frameInHand.map fun f =>
        { f with replaced := f.replaced || decide (f.content.slot = .report) }
      transmitter := if s.line.transmitter = .idle then .deferring else s.line.transmitter } }

/-- R166: a frame that a boundary has routed is accepted by its own command, with the effect that the same contents have
in a state where nothing is owed; the other owed steps stay owed. That an acceptance is owed until it is taken is the
model's choice (logs 1, 14). -/
def Clause.OwedAcceptanceIsTakenByItsCommand : Prop :=
  ∀ (a : Accepted) (s : State), s.resetN = true → Owed.accept a ∈ s.owed →
    ∃ t, exec a.command { s with owed := [] } = .next t ∧
      exec a.command s = .next { t with owed := s.owed.erase (.accept a) }

/-- An owed step taken by its own command first changes nothing for a command, or a bit time, that finds it owed: each
takes every owed step in the order of the list before its own effect. An ANALYSIS_TICK that finds the end of WARMING
owed after it is left out, since it takes that first (R18). The order is the model's choice (log 1). -/
def Clause.OwedStepsAreTakenFirst : Prop :=
  ∀ (o : Owed) (rest : List Owed) (s t : State), s.resetN = true → s.owed = o :: rest →
    ¬ (o = .analysisTick ∧ Owed.leaveWarming ∈ rest) → exec o.command s = .next t →
    t.owed = rest ∧ (∀ c : Instr, Instr.settles c = true → exec c s = exec c t) ∧
      (∀ a : Accepted, Owed.accept a ∉ s.owed → exec a.command s = exec a.command t) ∧
      (s.pending = [] → step s = step t)

/-- R166, R169, R180: what an accepted QUERY does, and how steps that are owed come to be taken. -/
def Obligations.OwedStepsAndAcceptancesAreTaken : Prop :=
  Clause.QueryPlacesAReportRequest ∧ Clause.OwedAcceptanceIsTakenByItsCommand ∧ Clause.OwedStepsAreTakenFirst

/-! ### Stage line: transmitter and break -/

/-- R170: the rotating gap and the backoff gap, in bit times. -/
def Clause.GapsRotateFromTheLastSender : Prop :=
  ∀ own last : StationId,
    rotatingGap own last = 12 + 2 * ((own.toNat + 31 - last.toNat) % 16) ∧ backoffGap own = 44 + 2 * own.toNat

/-- R169, R170, R171, R178, R181: when the idle time reaches the gap, with the receiver READY and the line at mark, the
frame in hand is built from the CLAIM slot where it is pending, else from the REPORT slot, and its send begins; with no
slot pending the transmitter is IDLE with the collision count 0. The slots keep their contents. Inside a character of a
frame in reception the start bit has come first, and the transmitter defers; at space the idle time is 0. That
a SEND_START there, or in IDLE or SENDING, changes nothing is the model's choice (log 2); so is that the row is taken on
its sender's word that the gap is reached (log 3), and that the frame in hand is emptied (log 33). -/
def Clause.SendStartBuildsTheFrameInHand : Prop :=
  (∀ s : State, s.ready →
    (s.line.rx = .space ∨ (s.line.rx ≠ .mark ∧ ∃ chars p ws, s.line.receiver = .receiving chars p ws) ∨
      s.line.transmitter = .idle ∨ s.line.transmitter = .sending) →
    exec .sendStart s = .next s) ∧
  ∀ (s : State) (g : Nat), s.ready → s.line.receiver = .ready → s.line.rx = .mark →
    ((s.line.transmitter = .deferring ∧ g = rotatingGap s.straps.id s.line.lastSender) ∨
      (s.line.transmitter = .backoff ∧ g = backoffGap s.straps.id)) →
    let reached : LineControl := { s.line with idle := min 74 (max s.line.idle g) }
    (∀ r, s.line.claimSlot = some r → s.line.clash = false →
      exec .sendStart s = .next { s with line := { reached with
        transmitter := .sending
        frameInHand := some
          { chars := buildFrame 1 s.straps.id (claimPayload r), sent := 0, content := .claim r, replaced := false }
        echo := [] } }) ∧
    (∀ clear, (s.line.claimSlot = none ∨ s.line.clash = true) → s.line.reportSlot = some clear →
      exec .sendStart s = .next { s with line := { reached with
        transmitter := .sending
        frameInHand := some
          { chars := buildFrame 5 s.straps.id (reportPayload s), sent := 0, content := .report clear,
            replaced := false }
        echo := [] } }) ∧
    ((s.line.claimSlot = none ∨ s.line.clash = true) → s.line.reportSlot = none →
      exec .sendStart s = .next { s with line := { reached with
        transmitter := .idle, frameInHand := none, echo := [], collisions := 0, collisionSlot := none } })

/-- R159, R161, R166, R170: a gap is never shorter than 12, so a gap that is reached while the receiver is not READY
passes the frame boundary first, and then the send starts from what that leaves. That the row does so where its sender
has not sent FRAME_BOUNDARY before it is the model's form (log 18). -/
def Clause.SendStartPassesTheBoundaryFirst : Prop :=
  ∀ s : State, s.ready → (s.line.transmitter = .deferring ∨ s.line.transmitter = .backoff) →
    ((s.line.rx = .mark ∧ ∃ chars p ws, s.line.receiver = .receiving chars p ws) ∨
      (s.line.rx ≠ .space ∧ (s.line.receiver = .gapWait ∨ s.line.receiver = .skippingError ∨
        ∃ id, s.line.receiver = .skippingGroup id))) →
    ∃ t, exec .frameBoundary s = .next t ∧ t.line.receiver = .ready ∧ t.line.rx = .mark ∧
      exec .sendStart s = exec .sendStart t

/-- R159, R161, R166, R169, R170: the gaps, and the start of a send at their end. -/
def Obligations.SendStartBuildsTheFrameAfterTheGap : Prop :=
  Clause.GapsRotateFromTheLastSender ∧ Clause.SendStartBuildsTheFrameInHand ∧ Clause.SendStartPassesTheBoundaryFirst

/-- R52, R72, R131, R176, R181: the REPORT payload has 40 characters, and they are the ones the layout
lists, in every state. -/
def Obligations.ReportShowsTheStation : Prop :=
  ∀ s : State, (reportPayload s).length = 40 ∧
    (reportPayload s).take 8 = [
      0#2 ++ s.straps.group ++ s.straps.id,
      0#2 ++ s.straps.nv ++ s.straps.rate ++ s.straps.fs ++ s.straps.tune,
      (match s.follower with
        | .rest => 0 | .arming _ _ => 1 | .held _ _ => 2 | .changing _ _ _ => 3 | .lapsing _ _ _ => 4),
      BitVec.ofNat 8 (s.follower.heldNote.getD 0),
      (match s.result.reason with
        | .quiet => 0 | .unsure => 1 | .outOfRange => 2 | .voiced _ _ _ => 3),
      0#5 ++ BitVec.ofBool (decide (s.audio.state = .absent)) ++ BitVec.ofBool s.line.clash ++
        BitVec.ofBool s.scenes.bypass,
      BitVec.ofNat 8 s.scenes.active.number,
      (match s.scenes.pending with
        | none => 0
        | some p => match p.condition with
          | .atRest => 1
          | .atDelay _ => 2)] ∧
    (∀ v : Voice, (reportPayload s)[8 + 2 * v.index]? = some
        (if s.enabled v = true then
          match (s.channel v).state with
          | .off => 0 | .parked => 1 | .entering => 2 | .sounding => 3 | .gliding => 4 | .leaving => 5
        else 0) ∧
      (reportPayload s)[9 + 2 * v.index]? = some (BitVec.ofNat 8 ((s.voice v).target.getD 0))) ∧
    (reportPayload s).drop 16 =
      [s.counters.late, s.counters.repeats, s.counters.drop, s.counters.park, s.counters.collide, s.counters.giveUp,
        s.counters.badFrame, s.counters.inboxDrop, s.counters.expire, s.counters.clash, s.counters.hush,
        s.counters.clamp].flatMap fun n => [BitVec.ofNat 8 (n / 256), BitVec.ofNat 8 n]

/-- R169, R171, R122, R183: a matching echo of a character that is not the last lets the next follow; of the last it is
a success: last-sender is the own id, the collision count 0, the slot is emptied unless it has been replaced, and a
CLAIM becomes the last-sent record, a clearing REPORT clears all counters. -/
def Clause.MatchingEchoGoesOnOrSucceeds : Prop :=
  ∀ (s : State) (f : FrameInHand) (c : Byte), s.ready → s.line.transmitter = .sending → s.line.frameInHand = some f →
    f.chars[f.sent]? = some c →
    (f.sent + 1 < f.chars.length →
      exec (.echoCheck (some c)) s = .next { s with line := { s.line with
        frameInHand := some { f with sent := f.sent + 1 }, echo := [] } }) ∧
    (f.sent + 1 = f.chars.length →
      let sentLine : LineControl := { s.line with
        lastSender := s.straps.id, collisions := 0, collisionSlot := none, frameInHand := none, echo := [] }
      (∀ r, f.content = .claim r →
        let kept := if f.replaced = true then s.line.claimSlot else none
        exec (.echoCheck (some c)) s = .next { s with
          line := { sentLine with
            claimSlot := kept
            transmitter :=
              if (kept.isSome = true ∧ s.line.clash = false) ∨ s.line.reportSlot.isSome = true then .deferring
              else .idle }
          alloc := { s.alloc with lastSent := some r, sinceSend := 0 } }) ∧
      (∀ clear, f.content = .report clear →
        let kept := if f.replaced = true then s.line.reportSlot else none
        exec (.echoCheck (some c)) s = .next { s with
          line := { sentLine with
            reportSlot := kept
            transmitter :=
              if (s.line.claimSlot.isSome = true ∧ s.line.clash = false) ∨ kept.isSome = true then .deferring
              else .idle }
          counters := if clear = true then zeroCounters else s.counters }))

/-- R171, R172, R173: a character heard otherwise, or not at all, is a collision: COLLIDE is counted and the count of
the slot's attempts rises; short of eight the transmitter backs off with its slots as they stand, at the eighth it
counts GIVEUP and empties the slot unless it has been replaced. Which slot the count belongs to is the model's own
field (log 11), and that a give-up empties the frame in hand its choice (log 33). -/
def Clause.MismatchCollides : Prop :=
  ∀ (s : State) (f : FrameInHand) (heard : Option Byte), s.ready → s.line.transmitter = .sending →
    s.line.frameInHand = some f → (heard = none ∨ heard ≠ f.chars[f.sent]?) →
    s.counters.collide ≤ 65535 → s.counters.giveUp ≤ 65535 →
    let held := if s.line.collisionSlot = some f.content.slot then s.line.collisions else 0
    (held + 1 < 8 → exec (.echoCheck heard) s = .next { s with
      line := { s.line with
        transmitter := .backoff, collisions := held + 1, collisionSlot := some f.content.slot, echo := [] }
      counters := { s.counters with collide := min 65535 (s.counters.collide + 1) } }) ∧
    (8 ≤ held + 1 →
      let keptClaim := if f.content.slot = .claim ∧ f.replaced = false then none else s.line.claimSlot
      let keptReport := if f.content.slot = .report ∧ f.replaced = false then none else s.line.reportSlot
      exec (.echoCheck heard) s = .next { s with
        line := { s.line with
          collisions := 0, collisionSlot := none, frameInHand := none, echo := [], claimSlot := keptClaim,
          reportSlot := keptReport,
          transmitter :=
            if (keptClaim.isSome = true ∧ s.line.clash = false) ∨ keptReport.isSome = true then .deferring else .idle }
        counters := { s.counters with
          collide := min 65535 (s.counters.collide + 1), giveUp := min 65535 (s.counters.giveUp + 1) } })

/-- R122, R169, R171, R172, R173, R183: what an echo check finds. That the check is taken whatever number of levels the
detector has heard is the model's choice (log 37). -/
def Obligations.EchoCheckGoesOnOrEndsTheSend : Prop :=
  Clause.MatchingEchoGoesOnOrSucceeds ∧ Clause.MismatchCollides

/-- R32, R50, R70, R103, R124, R142, R145, R157, R164, R172, R173, R174: a break raises a hush at every block; a send
that it overtakes has ended as a collision before it, given up where that collision is the eighth (log 17). A running
PLACE runs on: a live one will add its grain and schedule nothing, one already overtaken or discarded keeps its fate,
and one already dropped, which adds nothing, will schedule nothing either (log 12). That the command sets the space run
to 40 (log 16) and empties the frame in hand (log 33) is the model's choice. -/
def Obligations.BreakHushesTheStation : Prop :=
  ∀ s : State, s.ready → s.line.receiver ≠ .breaking → s.counters.hush ≤ 65535 → s.counters.collide ≤ 65535 →
    s.counters.giveUp ≤ 65535 → ∀ (collided gaveUp : Nat) (keptReport : Option Bool),
    ((s.line.transmitter ≠ .sending ∧ collided = 0 ∧ gaveUp = 0 ∧ keptReport = s.line.reportSlot) ∨
      (s.line.transmitter = .sending ∧ collided = 1 ∧ ∃ f, s.line.frameInHand = some f ∧
        let held := if s.line.collisionSlot = some f.content.slot then s.line.collisions else 0
        ((held + 1 < 8 ∧ gaveUp = 0 ∧ keptReport = s.line.reportSlot) ∨
          (8 ≤ held + 1 ∧ gaveUp = 1 ∧
            keptReport = if f.content.slot = .report ∧ f.replaced = false then none else s.line.reportSlot)))) →
    ∃ t, exec .hush s = .next t ∧
      t = { s with
        line := { s.line with
          receiver := .breaking, rx := .space, spaceRun := 40, idle := 0, lastSender := s.straps.id, collisions := 0,
          collisionSlot := none, frameInHand := none, echo := [], claimSlot := some { live := none, entries := [] },
          reportSlot := keptReport,
          transmitter := if s.line.clash = false ∨ keptReport.isSome = true then .deferring else .idle }
        counters := { s.counters with
          hush := min 65535 (s.counters.hush + 1), collide := min 65535 (s.counters.collide + collided),
          giveUp := min 65535 (s.counters.giveUp + gaveUp) }
        tracker := t.tracker
        marks := []
        coverEnd := none
        coverFar := false
        follower := .rest
        scenes := { s.scenes with pending := none }
        claimQueue := []
        map := []
        alloc :=
          { voices := t.alloc.voices, record := { live := none, entries := [] }, lastSent := s.alloc.lastSent,
            sinceSend := s.alloc.sinceSend, sincePlacement := 0 }
        channels := t.channels
        arbiter := { list := [], running := t.arbiter.running } } ∧
      ((∃ a, s.tracker = .analysing a) → t.tracker = .waiting) ∧
      ((¬ ∃ a, s.tracker = .analysing a) → t.tracker = s.tracker) ∧
      (∀ v : Voice, (t.voice v).bare ∧
        (((s.channel v).state = .off ∨ (s.channel v).state = .parked) → t.channel v = s.channel v) ∧
        ((s.channel v).state ≠ .off → (s.channel v).state ≠ .parked → t.channel v =
          { s.channel v with
            state := .leaving, leaveRate := 4, next := .empty, placementPoint := none, cycleRunning := false })) ∧
      (s.arbiter.running = none → t.arbiter.running = none) ∧
      (∀ r, s.arbiter.running = some r →
        (r.job.isAnalysis = true → t.arbiter.running =
          some { r with fate := match s.tracker with | .analysing _ => .discarded | _ => r.fate }) ∧
        ((∃ o q m, r.job = .fetch o q m) → t.arbiter.running = some { r with fate := .discarded }) ∧
        ((∃ v g m, r.job = .place v g m) →
          (r.fate = .live → t.arbiter.running = some { r with fate := .addsOnly }) ∧
          (r.fate = .dropped → t.arbiter.running = some { r with fate := .discarded }) ∧
          ((r.fate = .addsOnly ∨ r.fate = .discarded) → t.arbiter.running = some r)))

/-- R1, R13: a bit time first brings the edges of ABCLK that the outside gives it, none where it gives none (log 35);
then it counts 24 or 96 periods of the line oscillator, by the RATE strap, into the loss timer, which runs out at
24,000; then the line's bit time passes. -/
def Clause.BitTimeTakesTheEdgesThenTheLossTimer : Prop :=
  ∀ s : State, s.ready → s.pending = [] → ∃ u : State,
    u = passEdges (s.audioIn.headD []) { s with audioIn := s.audioIn.tail } ∧
    (s.audioIn = [] → u = s) ∧
    (u.audio.lossTimer = none → step s = .next u.passLine) ∧
    ∀ n, u.audio.lossTimer = some n → let n2 := n + if s.straps.rate = 0 then 24 else 96
      (n2 < 24000 → step s = .next (State.passLine { u with audio := { u.audio with lossTimer := some n2 } })) ∧
      (24000 ≤ n2 → ∃ t, exec .lossOfAudio u = .next t ∧ step s = .next t.passLine)

/-- R158: the level of LINE_RX in a bit time is the one that the outside gives; where it gives none, the own LINE_TX
while LINE_DE is high, and else the level at which the line stands. Inside a character whose bits the outside does not
give, no bit passes. These are the model's choices (log 28). -/
def Clause.BitTimeTakesTheLineLevel : Prop :=
  ∀ s : State,
    (∀ b rest, s.lineIn = b :: rest → s.passLine = State.lineBit b { s with lineIn := rest }) ∧
    (s.lineIn = [] → s.line.transmitter = .sending → s.passLine = s.lineBit s.lineTx) ∧
    (s.lineIn = [] → s.line.transmitter ≠ .sending →
      (s.line.rx = .mark → s.passLine = s.lineBit true) ∧ (s.line.rx = .space → s.passLine = s.lineBit false) ∧
      ∀ bits, s.line.rx = .character bits → s.passLine = s)

/-- R158, R161, R164, R171: in a bit time the transmitter's own detector hears the level first and has its character
after ten; the space run counts it; the receiver samples it; and a space run of 40 is a break. -/
def Clause.LineBitIsHeardCountedAndReceived : Prop :=
  ∀ (s : State) (b : Bool), s.ready → s.line.spaceRun ≤ 40 →
    ∃ u w, s.lineBit b = w ∧
      (s.line.transmitter ≠ .sending → u = s) ∧
      (s.line.transmitter = .sending → s.line.echo.length < 9 →
        u = { s with line := { s.line with echo := s.line.echo ++ [b] } }) ∧
      (s.line.transmitter = .sending → s.line.echo.length = 9 →
        exec (.echoCheck (heardChar (s.line.echo ++ [b]))) s = .next u) ∧
      let run := if b = true then 0 else min 40 (s.line.spaceRun + 1)
      let received := State.receiveBit b { u with line := { u.line with spaceRun := run } }
      (received.line.spaceRun < 40 → w = received) ∧
      (40 ≤ received.line.spaceRun → received.owed = [] → exec .hush received = .next w)

/-- R158, R159, R161, R163: what the receiver makes of a level: idle time at mark, a start bit at a change to space,
data bits, a complete character at a stop bit at mark, a space at a stop bit at space, and the return to mark. -/
def Clause.ReceiverSamplesEachLevel : Prop :=
  ∀ (s : State) (b : Bool), s.ready →
    (s.line.rx = .mark → b = true → s.receiveBit b = s.passIdle) ∧
    (s.line.rx = .mark → b = false →
      exec (if s.line.receiver = .ready then .frameStart else .startBit) s = .next (s.receiveBit b)) ∧
    (∀ bits, s.line.rx = .character bits → bits.length < 8 →
      s.receiveBit b = { s with line := { s.line with rx := .character (bits ++ [b]) } }) ∧
    (∀ bits, s.line.rx = .character bits → bits.length = 8 → b = true →
      exec (.characterReceived (charOf bits)) s = .next (s.receiveBit b)) ∧
    (∀ bits, s.line.rx = .character bits → bits.length = 8 → b = false →
      s.receiveBit b = { s with line := { s.line with rx := .space } }) ∧
    (s.line.rx = .space → b = true → ∃ t, exec .lineReturnToMark s = .next t ∧ s.receiveBit b = t.passIdle) ∧
    (s.line.rx = .space → b = false → s.receiveBit b = s)

/-- R159, R166, R170: a bit time of idle line: the idle time rises to 74 at most; at 12 the frame boundary comes first,
and then the gap is tested against the values that it leaves. -/
def Clause.IdleBitTimeBringsTheBoundaryThenTheGap : Prop :=
  ∀ s : State, s.ready → s.line.rx = .mark → s.line.idle ≤ 74 →
    ∃ u : State,
      (s.line.idle ≠ 11 → u = { s with line := { s.line with idle := min 74 (s.line.idle + 1) } }) ∧
      (s.line.idle = 11 → ∃ t, exec .frameBoundary { s with line := { s.line with idle := 12 } } = .next t ∧
        u = t.settle) ∧
      let gap := if u.line.transmitter = .deferring then some (rotatingGap u.straps.id u.line.lastSender)
        else if u.line.transmitter = .backoff then some (backoffGap u.straps.id) else none
      (∀ g, gap = some g → g ≤ u.line.idle → u.line.receiver = .ready → u.line.rx = .mark → u.line.idle ≤ 74 →
        exec .sendStart u = .next s.passIdle) ∧
      ((∀ g, gap = some g → u.line.idle < g) → s.passIdle = u)

/-- R158: ten bit times at the levels of a character, found at mark by a station that is not sending, come to a start
bit and that character. -/
def Clause.TenBitTimesReceiveACharacter : Prop :=
  ∀ (c : Byte) (s : State), s.ready → s.line.rx = .mark → s.line.spaceRun = 0 → s.line.receiver ≠ .breaking →
    s.line.transmitter ≠ .sending →
    ∃ t u, exec (if s.line.receiver = .ready then .frameStart else .startBit) s = .next t ∧
      exec (.characterReceived c) t = .next u ∧
      ([false, c.getLsbD 0, c.getLsbD 1, c.getLsbD 2, c.getLsbD 3, c.getLsbD 4, c.getLsbD 5, c.getLsbD 6, c.getLsbD 7,
        true].foldl (fun s b => s.lineBit b) s) = u

/-- R171: the character that the transmitter's detector has after ten levels is the one whose data bits they are, least
significant first; without a start bit or with its stop bit at space it has none. -/
def Clause.DetectorNeedsStartAndStopBits : Prop :=
  ∀ (c : Byte) (start stop : Bool),
    heardChar [start, c.getLsbD 0, c.getLsbD 1, c.getLsbD 2, c.getLsbD 3, c.getLsbD 4, c.getLsbD 5, c.getLsbD 6,
      c.getLsbD 7, stop] = if start = false ∧ stop = true then some c else none

/-- R13, R158, R159, R161, R163, R164, R166, R170, R171: what a bit time of the line oscillator brings on an empty
queue. That a step on an empty queue is one bit time, audio first and then the timer, is the model's choice (logs 4,
35), as are the places of the bits within it (log 28). -/
def Obligations.BitTimesMoveTheTimerAndTheLine : Prop :=
  Clause.BitTimeTakesTheEdgesThenTheLossTimer ∧ Clause.BitTimeTakesTheLineLevel ∧ Clause.LineBitIsHeardCountedAndReceived ∧
    Clause.ReceiverSamplesEachLevel ∧ Clause.IdleBitTimeBringsTheBoundaryThenTheGap ∧
    Clause.TenBitTimesReceiveACharacter ∧ Clause.DetectorNeedsStartAndStopBits

/-! ### Frames -/

/-- R100, R119, R166, R176, R177, R178: the CLAIM frame built from a record is whole, bears the kind and the sender, is
well formed, and a peer that drains it holds the record's live note and every one of its voices. -/
def Clause.ClaimFrameCarriesItsRecord : Prop :=
  ∀ (own peer : StationId) (capture : Pos) (r : ClaimRecord), r.sound → own ≠ peer →
    let chars := buildFrame 1 own (claimPayload r)
    chars.length = 6 + 3 * r.entries.length ∧ isWhole chars = true ∧
      ∃ h rest m, chars = h :: rest ∧ h.toNat = 16 + own.toNat ∧
        routeFrame peer capture h (payloadOf chars) = .accepted (.claim m) ∧
        drainedEntry m =
          { id := own, live := r.live, silence := 0,
            voices := r.entries.map fun e => { voice := e.voice, note := e.note, age := e.age, doubled := e.doubled } }

/-- R178: a CLAIM payload is malformed exactly where its length is below 2, its second character N is above 4, or its
length is not 2 + 3 × N. -/
def Clause.ClaimsAreMalformedByTheirLengths : Prop :=
  ∀ (sender : StationId) (payload : List Byte), parseClaim sender payload = none ↔
    payload.length < 2 ∨ ∃ live n rest, payload = live :: n :: rest ∧
      (4 < n.toNat ∨ payload.length ≠ 2 + 3 * n.toNat)

/-- R92, R178 and the layout of 11.2: a CLAIM payload's live note, then for each claim its voice byte, with the voice
index in bits 1..0 and the doubled flag in bit 7, its note and its age, in their order. -/
def Clause.ClaimItemsStandInTheirPlaces : Prop :=
  ∀ (sender : StationId) (live : Byte) (claims : List (Byte × Byte × Byte)), claims.length ≤ 4 →
    ∃ m, parseClaim sender
        (live :: BitVec.ofNat 8 claims.length :: claims.flatMap fun (b, note, age) => [b, note, age]) = some m ∧
      m.sender = sender ∧ m.live = live ∧
      m.items.map (fun i => (i.voice.index, i.doubled, i.note, i.age)) =
        claims.map fun (b, note, age) => (b.toNat % 4, b.getLsbD 7, note, age)

/-- R178 and the layout of 11.2: the payload of a record: the live note, or 0; the number of entries; and for each entry
its voice index in bits 1..0 with its doubled flag in bit 7 and the unused bits 0, its note and its age. -/
def Clause.ClaimPayloadIsTheRecord : Prop :=
  ∀ r : ClaimRecord, ∃ bytes : ClaimEntry → Byte,
    claimPayload r = (match r.live with | some n => BitVec.ofNat 8 n | none => 0) ::
      BitVec.ofNat 8 r.entries.length ::
      r.entries.flatMap (fun e => [bytes e, BitVec.ofNat 8 e.note, BitVec.ofNat 8 e.age]) ∧
    ∀ e, (bytes e).toNat % 4 = e.voice.index ∧ (bytes e).getLsbD 7 = e.doubled ∧
      ∀ i, 2 ≤ i → i ≤ 6 → (bytes e).getLsbD i = false

/-- R92, R100, R119, R166, R176, R177, R178: which CLAIM payloads are well formed, what they hold, and the CLAIM frame
of a record. -/
def Obligations.ClaimsAreLaidOutByTheirRule : Prop :=
  Clause.ClaimFrameCarriesItsRecord ∧ Clause.ClaimsAreMalformedByTheirLengths ∧ Clause.ClaimItemsStandInTheirPlaces ∧
    Clause.ClaimPayloadIsTheRecord

/-- R166, R176, R177: a frame built around a payload of at most 60 characters is whole, with its payload inside, and one
changed check character makes it bad. -/
def Clause.BuiltFramesAreWhole : Prop :=
  ∀ (kind : Nat) (id : StationId) (payload : List Byte), kind < 16 → payload.length ≤ 60 →
    let chars := buildFrame kind id payload
    isWhole chars = true ∧ payloadOf chars = payload ∧ chars.length = payload.length + 4 ∧
      (∃ h rest, chars = h :: rest ∧ headerKind h = kind ∧ headerSender h = id) ∧
      ∀ c : Byte, some c ≠ chars.getLast? → isWhole (chars.dropLast ++ [c]) = false

/-- R166: a frame is whole exactly where its number of characters is its length byte + 4 and its last two characters are
the check over the others, high byte first; a frame that ended before its length byte arrived is bad. -/
def Clause.WholeFramesHaveTheirLengthAndCheck : Prop :=
  (∀ chars : List Byte, chars.length < 2 → isWhole chars = false) ∧
  ∀ (h l : Byte) (rest : List Byte), let chars := h :: l :: rest
    let check := crc (chars.take (chars.length - 2))
    isWhole chars = true ↔ chars.length = l.toNat + 4 ∧
      chars.drop (chars.length - 2) = [check.extractLsb' 8 8, check.extractLsb' 0 8]

/-- R177: the check of the nine characters "123456789" is 29B1 hexadecimal. -/
def Clause.CheckOfTheNineDigits : Prop :=
  crc [0x31, 0x32, 0x33, 0x34, 0x35, 0x36, 0x37, 0x38, 0x39] = 0x29B1#16

/-- R166, R176, R177: which frames are whole, that those built here are, and the rule's own value of the check. -/
def Obligations.FramesPassTheCheck : Prop :=
  Clause.BuiltFramesAreWhole ∧ Clause.WholeFramesHaveTheirLengthAndCheck ∧ Clause.CheckOfTheNineDigits

/-! ### What every step keeps -/

/-- R8, R127: the capture ring and the overlap buffers keep their canonical form, within their sizes. The canonical
form is the model's own (log 25). -/
def Obligations.StoresStayCanonical : Prop :=
  ∀ s t : State, s.storesCanonical → step s = .next t → t.storesCanonical

/-- R182: every counter stays in 0..65535. -/
def Clause.CountersStayInSixteenBits : Prop :=
  ∀ s t : State, s.countersBounded → step s = .next t → t.countersBounded

/-- R182, R183: no command lets a counter fall, but a reset and an ECHO_CHECK that sets all twelve to 0. -/
def Obligations.CountersNeverFall : Prop :=
  ∀ (c : Instr) (s t : State), exec c s = .next t → c ≠ .resetAssert → (∀ p m, c ≠ .resetRelease p m) →
    (∀ k, s.counters.get k ≤ t.counters.get k) ∨ ((∃ heard, c = .echoCheck heard) ∧ t.counters = zeroCounters)

/-- R15, R168: the clash flag, once set, stays set until a reset. -/
def Clause.ClashFlagStaysUntilReset : Prop :=
  ∀ (c : Instr) (s t : State), exec c s = .next t → c ≠ .resetAssert → (∀ p m, c ≠ .resetRelease p m) →
    s.line.clash = true → t.line.clash = true

/-- R3, R4, R15, R16, R158, R169: the levels of the pins. FAULT is high while audio is ABSENT or the clash flag is set;
VOICE_ACTn while voice n is ENTERING, SOUNDING or GLIDING; LINE_DE while in SENDING, with the bits of the character
being sent on LINE_TX, a start bit at space, the data bits least significant first and a stop bit at mark, and LINE_TX
at mark otherwise; and ADOUT carries the slots of the open output frame, each as 24 bits, most significant first, then
eight zeros, one bit from one falling edge of ABCLK to the next, and is low after the 256th and outside any output
frame. -/
def Clause.PinsFollowTheState : Prop :=
  ∀ s : State,
    (s.faultPin = true ↔ s.audio.state = .absent ∨ s.line.clash = true) ∧
    (∀ v : Voice, s.voiceAct v = true ↔
      (s.channel v).state = .entering ∨ (s.channel v).state = .sounding ∨ (s.channel v).state = .gliding) ∧
    (s.lineDE = true ↔ s.line.transmitter = .sending) ∧
    (s.line.transmitter ≠ .sending → s.lineTx = true) ∧
    (∀ f c, s.line.transmitter = .sending → s.line.frameInHand = some f → f.chars[f.sent]? = some c →
      s.lineTx = if s.line.echo.length = 0 then false
        else if s.line.echo.length ≤ 8 then c.getLsbD (s.line.echo.length - 1) else true) ∧
    (s.audio.out = none → s.adout = false) ∧
    ∀ f, s.audio.out = some f →
      (∀ (slot bit : Nat) (x : Int), f.slots[slot]? = some x → bit < 32 → f.driven = 32 * slot + bit →
        s.adout = if bit < 24 then (BitVec.ofInt 24 x).getLsbD (23 - bit) else false) ∧
      (f.slots.length = 8 → 256 ≤ f.driven → s.adout = false)

/-- R3, R4, R5, R9, R15, R16, R40, R168: the queue, the latch, the period table, the stage clock and the clash flag
change at the events that their rules name and at no other command, and the pins follow the state. That the falling edge
of RESET_N, up to which R5 holds them, leaves the latch and the table too is the model's choice (log 6). -/
def Obligations.StrapsClockAndClashFlagMoveAtTheirEvents : Prop :=
  Clause.CommandsLeaveTheQueue ∧ Clause.StrapsHoldUntilReset ∧ Clause.ClockMovesAtSampleArrivalsAlone ∧
    Clause.ClashFlagStaysUntilReset ∧ Clause.PinsFollowTheState

/-- R92, R93, R97, R100, R102: the claim queue and the stage map stay keyed by sender, within their bounds and without
the own id. The order by id is the model's own (log 20). -/
def Obligations.StageStaysKeyedBySender : Prop :=
  ∀ s t : State, s.stageKnown → step s = .next t → t.stageKnown

/-- R127: ramp counts stay in 0..256 and leave rates 1 or 4. -/
def Clause.RampsStayBounded : Prop :=
  ∀ s t : State, s.rampsBounded → step s = .next t → t.rampsBounded

/-- R158, R159, R161, R162, R171, R172, R173: the line controller's counts stay in their ranges. -/
def Clause.LineCountsStayBounded : Prop :=
  ∀ s t : State, s.lineBounded → step s = .next t → t.lineBounded

/-- R1, R3, R4, R11, R13: the audio ports' counts stay in their ranges. How far an output frame has been driven is the
model's own count (log 35). -/
def Clause.AudioCountsStayBounded : Prop :=
  ∀ s t : State, s.audioBounded → step s = .next t → t.audioBounded

/-- R110, R113: the two counts of decisions and the voices' ages stay in their ranges. -/
def Clause.DecisionCountsStayBounded : Prop :=
  ∀ s t : State, s.decisionsBounded → step s = .next t → t.decisionsBounded

/-- R119: the own claim record and the record in the CLAIM slot stay such as a decision can build, where notes and ages
are in their ranges. -/
def Clause.RecordsStaySound : Prop :=
  ∀ s t : State, s.notesInTable → s.decisionsBounded → s.recordsSound → step s = .next t → t.recordsSound

/-- R11, R13, R110, R113, R119, R127, R158, R159, R161, R162, R171, R172, R173, R182: the counts of every block and the
own claim record stay in their ranges. -/
def Obligations.CountsStayInTheirRanges : Prop :=
  Clause.CountersStayInSixteenBits ∧ Clause.RampsStayBounded ∧ Clause.LineCountsStayBounded ∧
    Clause.AudioCountsStayBounded ∧ Clause.DecisionCountsStayBounded ∧ Clause.RecordsStaySound

/-- R33, R35, R36, R37, R38, R39: the mark list stays in strictly increasing position, each mark before the cover end
and within 36,864 sixteenths of the newest sample, with the spacing that keeps it within its 176 places. The invariant
carries the analysis in flight along, whose tick becomes the next cover end; how a cover end too far behind is held is
the model's own (log 32). -/
def Obligations.MarkListStaysOrderedAndBounded : Prop :=
  (∀ s t : State, s.marksOrdered → s.analysisPlaced → step s = .next t → t.marksOrdered ∧ t.analysisPlaced) ∧
    ∀ s : State, s.marksOrdered → s.marks.length ≤ 176

/-- R17, R135, R136, R137, R142, R144, R145, R149, R151, R153: the jobs that owners await stay within one PLACE and one
FETCH for each voice and one ANALYSIS segment, a merged FETCH is of a pair, no job waits for a FREE unit, and each
awaited job is one that its owner's registers ask for. A PLACE that a hush has overtaken is not counted as awaited (log
12). -/
def Obligations.JobsStayWithinTheirLimits : Prop :=
  ∀ s t : State, s.arbiter.withinLimits → s.jobsOwned → s.trackerFollowsAudio → step s = .next t →
    t.arbiter.withinLimits ∧ t.jobsOwned ∧ t.trackerFollowsAudio

/-- R80, R81, R82, R83, R85: every computed step is rounded once and clamped to 2048..8192, and the step in force of
every voice lies in that range, right after reset and in every state that a step reaches from a state where posted steps
and glides do too. -/
def Obligations.StepsInForceStayWithinAnOctave : Prop :=
  Clause.StepsAreRoundedThenClamped ∧ State.reset.stepsInRange ∧
    ∀ s t : State, s.stepsInRange → step s = .next t → t.stepsInRange

/-- R7, R110, R118, R130: the voices' states, targets and rules stay in agreement: a voice has a target exactly when it
is ENTERING, SOUNDING or GLIDING, and a disabled voice stays OFF. -/
def Obligations.VoicesWithTargetsAreTheSoundingOnes : Prop :=
  ∀ s t : State, s.voicesAgree → step s = .next t → t.voicesAgree

/-- R117: no two voices come to hold the same target. -/
def Clause.TargetsStayDistinct : Prop :=
  ∀ s t : State, s.disabledUntargeted → s.targetsDistinct → step s = .next t →
    t.disabledUntargeted ∧ t.targetsDistinct

/-- R54, R117: held notes, candidate notes and targets stay in 33..93. -/
def Clause.NotesStayInTheTable : Prop :=
  ∀ s t : State, s.notesInTable → step s = .next t → t.notesInTable

/-- R54, R117: targets stay distinct and notes in the table. -/
def Obligations.TargetsStayDistinctNotesInTheTable : Prop :=
  Clause.TargetsStayDistinct ∧ Clause.NotesStayInTheTable

/-- R17, R18, R33, R44, R51, R125: the tracker is ABSENT exactly while audio is, and until it has warmed the follower
rests, no mark stands and no voice has a target. -/
def Obligations.NoNoteMarkOrTargetBeforeWarming : Prop :=
  ∀ s t : State, s.trackerFollowsAudio → s.restsUntilWarm → step s = .next t →
    t.trackerFollowsAudio ∧ t.restsUntilWarm

/-- Every property that a step keeps holds right after reset. The strap and line levels of State.reset are the model's
choice (log 5, log 24). -/
def Obligations.ResetMeetsEveryProperty : Prop :=
  State.reset.storesCanonical ∧ State.reset.countersBounded ∧ State.reset.stageKnown ∧ State.reset.rampsBounded ∧
    State.reset.lineBounded ∧ State.reset.audioBounded ∧ State.reset.decisionsBounded ∧ State.reset.recordsSound ∧
    State.reset.stepsInRange ∧ State.reset.voicesAgree ∧ State.reset.targetsDistinct ∧
    State.reset.notesInTable ∧ State.reset.trackerFollowsAudio ∧ State.reset.restsUntilWarm ∧
    State.reset.marksOrdered ∧ State.reset.analysisPlaced ∧ State.reset.arbiter.withinLimits ∧ State.reset.jobsOwned ∧
    State.reset.heldInReset ∧ State.reset.ready
end

