-- ==== Sys2Proof/Laws/Cells.lean ====
section
/-! SUPPORT. Laws/Cells.lean: the addressed stores. A read after a write, and the canonical form that every write keeps.
-/

namespace Sys2Proof.Machine

variable {α : Type}

@[simp] theorem Cells.read_nil (zero : α) (k : Nat) : Cells.read zero [] k = zero := rfl

theorem Cells.read_eq_zero (zero : α) (c : Cells α) (k : Nat) (h : ∀ x ∈ c, x.1 ≠ k) : Cells.read zero c k = zero := by
  induction c with
  | nil => rfl
  | cons x rest ih =>
    obtain ⟨a, y⟩ := x
    have ha : a ≠ k := h (a, y) (by simp)
    simpa [Cells.read, ha] using ih fun z hz => h z (by simp [hz])

variable [DecidableEq α]

/-- The canonical form, in full. -/
theorem Cells.wf_iff (zero : α) (c : Cells α) :
    Cells.wf zero c = true ↔ (c.Pairwise fun x y => x.1 < y.1) ∧ ∀ x ∈ c, x.2 ≠ zero := by
  simp [Cells.wf]

/-- A write at k lists no address but k and those listed before, and no value at k but the one written. -/
theorem Cells.mem_write {zero : α} {c : Cells α} {k : Nat} {x : α} {y : Nat × α} (h : y ∈ Cells.write zero c k x) :
    (y = (k, x) ∧ x ≠ zero) ∨ y ∈ c := by
  induction c with
  | nil =>
    simp only [Cells.write] at h
    split at h
    · simp at h
    · exact .inl ⟨by simpa using h, ‹_›⟩
  | cons z rest ih =>
    obtain ⟨a, w⟩ := z
    simp only [Cells.write] at h
    split at h
    · split at h
      · exact .inr h
      · rcases List.mem_cons.1 h with h | h
        · exact .inl ⟨h, ‹_›⟩
        · exact .inr h
    · split at h
      · split at h
        · exact .inr (List.mem_cons_of_mem _ h)
        · rcases List.mem_cons.1 h with h | h
          · exact .inl ⟨h, ‹_›⟩
          · exact .inr (List.mem_cons_of_mem _ h)
      · rcases List.mem_cons.1 h with h | h
        · exact .inr (by simp [h])
        · rcases ih h with h | h
          · exact .inl h
          · exact .inr (List.mem_cons_of_mem _ h)

theorem Cells.wf_write {zero : α} {c : Cells α} (k : Nat) (x : α) (h : Cells.wf zero c = true) :
    Cells.wf zero (Cells.write zero c k x) = true := by
  rw [Cells.wf_iff] at h ⊢
  refine ⟨?_, fun y hy => ?_⟩
  · obtain ⟨h, -⟩ := h
    induction c with
    | nil => simp only [Cells.write]; split <;> simp
    | cons z rest ih =>
      obtain ⟨a, w⟩ := z
      have hr := List.pairwise_cons.1 h
      simp only [Cells.write]
      split
      · split
        · exact h
        · refine List.pairwise_cons.2 ⟨fun y hy => ?_, h⟩
          rcases List.mem_cons.1 hy with rfl | hy
          · assumption
          · exact lt_trans ‹_› (hr.1 y hy)
      · split
        · split
          · exact hr.2
          · exact List.pairwise_cons.2 ⟨fun y hy => by have := hr.1 y hy; simp_all, hr.2⟩
        · refine List.pairwise_cons.2 ⟨fun y hy => ?_, ih hr.2⟩
          rcases Cells.mem_write hy with ⟨rfl, -⟩ | hy
          · simp; omega
          · exact hr.1 y hy
  · rcases Cells.mem_write hy with ⟨rfl, hx⟩ | hy
    · exact hx
    · exact h.2 y hy

theorem Cells.within_write {zero : α} {c : Cells α} {n k : Nat} (x : α) (h : Cells.within n c) (hk : k < n) :
    Cells.within n (Cells.write zero c k x) := fun y hy => by
  rcases Cells.mem_write hy with ⟨rfl, -⟩ | hy
  · exact hk
  · exact h y hy

/-- Read after write. -/
theorem Cells.read_write {zero : α} {c : Cells α} (k j : Nat) (x : α) (h : Cells.wf zero c = true) :
    Cells.read zero (Cells.write zero c k x) j = if j = k then x else Cells.read zero c j := by
  rw [Cells.wf_iff] at h
  obtain ⟨h, -⟩ := h
  induction c with
  | nil =>
    simp only [Cells.write]
    split
    · simp_all
    · simp [Cells.read, eq_comm]
  | cons z rest ih =>
    obtain ⟨a, w⟩ := z
    have hr := List.pairwise_cons.1 h
    have hrest : Cells.read zero rest a = zero :=
      Cells.read_eq_zero _ _ _ fun y hy => Nat.ne_of_gt (hr.1 y hy)
    simp only [Cells.write]
    split
    · rename_i hk
      have hz : Cells.read zero ((a, w) :: rest) k = zero := Cells.read_eq_zero _ _ _ fun y hy => by
        rcases List.mem_cons.1 hy with rfl | hy
        · exact Nat.ne_of_gt hk
        · exact Nat.ne_of_gt (lt_trans hk (hr.1 y hy))
      split
      · rename_i hx
        by_cases hj : j = k
        · subst hj; simp [hz, hx]
        · simp [hj]
      · by_cases hj : j = k
        · subst hj; simp [Cells.read]
        · simp [Cells.read, hj, Ne.symm hj]
    · split
      · rename_i hk
        subst hk
        split
        · rename_i hx
          by_cases hj : j = k
          · subst hj; simp [hrest, hx]
          · simp [Cells.read, hj, Ne.symm hj]
        · by_cases hj : j = k
          · subst hj; simp [Cells.read]
          · simp [Cells.read, hj, Ne.symm hj]
      · rename_i hk1 hk2
        by_cases hja : a = j
        · subst hja
          have : a ≠ k := Ne.symm hk2
          simp [Cells.read, this]
        · simp [Cells.read, hja, ih hr.2]

/-! ### The capture ring and the overlap buffers -/

@[simp] theorem readRing_nil (p : Pos) : readRing [] p = 0 := rfl

@[simp] theorem readOverlap_nil (p : Pos) : readOverlap [] p = 0 := rfl

theorem readRing_writeRing {ring : Cells Sample} (p q : Pos) (x : Sample) (h : Cells.wf 0 ring = true) :
    readRing (writeRing ring p x) q =
      if q.toNat % Config.ringSize = p.toNat % Config.ringSize then x else readRing ring q :=
  Cells.read_write _ _ _ h

theorem wf_writeRing {ring : Cells Sample} (p : Pos) (x : Sample) (h : Cells.wf 0 ring = true) :
    Cells.wf 0 (writeRing ring p x) = true :=
  Cells.wf_write _ _ h

theorem within_writeRing {ring : Cells Sample} (p : Pos) (x : Sample) (h : Cells.within Config.ringSize ring) :
    Cells.within Config.ringSize (writeRing ring p x) :=
  Cells.within_write _ h (Nat.mod_lt _ (by decide))

theorem readOverlap_writeOverlap {o : Cells Int} (p q : Pos) (x : Int) (h : Cells.wf 0 o = true) :
    readOverlap (writeOverlap o p x) q =
      if q.toNat % Config.overlapSize = p.toNat % Config.overlapSize then x else readOverlap o q :=
  Cells.read_write _ _ _ h

theorem wf_writeOverlap {o : Cells Int} (p : Pos) (x : Int) (h : Cells.wf 0 o = true) :
    Cells.wf 0 (writeOverlap o p x) = true :=
  Cells.wf_write _ _ h

theorem within_writeOverlap {o : Cells Int} (p : Pos) (x : Int) (h : Cells.within Config.overlapSize o) :
    Cells.within Config.overlapSize (writeOverlap o p x) :=
  Cells.within_write _ h (Nat.mod_lt _ (by decide))

/-- A grain added keeps the buffer's form. -/
theorem wf_addGrain {o : Cells Int} (g : Grain) (mark : Pos16) (k : Nat) (h : Cells.wf 0 o = true) :
    Cells.wf 0 (addGrain o g mark k) = true := by
  unfold addGrain
  generalize g.samples = l
  induction l generalizing o with
  | nil => exact h
  | cons x l ih => exact ih (wf_writeOverlap _ _ h)

theorem within_addGrain {o : Cells Int} (g : Grain) (mark : Pos16) (k : Nat)
    (h : Cells.within Config.overlapSize o) : Cells.within Config.overlapSize (addGrain o g mark k) := by
  unfold addGrain
  generalize g.samples = l
  induction l generalizing o with
  | nil => exact h
  | cons x l ih => exact ih (within_writeOverlap _ _ h)

end Sys2Proof.Machine
end

