-- ==== Sys2Proof/Laws/State.lean ====
section
/-! SUPPORT. Laws/State.lean: one lemma for each field under each named update of the state, so that no proof unfolds a
record update. -/

namespace Sys2Proof.Machine

/-! ### One value a voice -/

@[simp] theorem Quad.get_set_same {α : Type} (q : Quad α) (v : Voice) (a : α) : (q.set v a).get v = a := by
  cases v <;> rfl

@[simp] theorem Quad.get_set_ne {α : Type} (q : Quad α) {v w : Voice} (a : α) (h : w ≠ v) :
    (q.set v a).get w = q.get w := by
  cases v <;> cases w <;> first | rfl | exact absurd rfl h

theorem Quad.get_set {α : Type} (q : Quad α) (v w : Voice) (a : α) :
    (q.set v a).get w = if w = v then a else q.get w := by
  cases v <;> cases w <;> rfl

@[simp] theorem Quad.get_const {α : Type} (a : α) (v : Voice) : (Quad.const a).get v = a := by cases v <;> rfl

@[simp] theorem Quad.get_ofFn {α : Type} (f : Voice → α) (v : Voice) : (Quad.ofFn f).get v = f v := by cases v <;> rfl

@[simp] theorem Quad.set_set {α : Type} (q : Quad α) (v : Voice) (a b : α) : (q.set v a).set v b = q.set v b := by
  cases v <;> rfl

@[simp] theorem Quad.set_get {α : Type} (q : Quad α) (v : Voice) : q.set v (q.get v) = q := by cases v <;> rfl

theorem Quad.ext_get {α : Type} {p q : Quad α} (h : ∀ v, p.get v = q.get v) : p = q := by
  obtain ⟨a, b, c, d⟩ := p
  obtain ⟨a', b', c', d'⟩ := q
  have h0 := h .v0
  have h1 := h .v1
  have h2 := h .v2
  have h3 := h .v3
  simp_all [Quad.get]

@[simp] theorem Voice.mem_all (v : Voice) : v ∈ Voice.all := by cases v <;> decide

/-! ### Field by field -/

@[simp] theorem State.bump_resetN (c : Counter) (s : State) : (s.bump c).resetN = s.resetN := rfl
@[simp] theorem State.bump_straps (c : Counter) (s : State) : (s.bump c).straps = s.straps := rfl
@[simp] theorem State.bump_npt (c : Counter) (s : State) : (s.bump c).npt = s.npt := rfl
@[simp] theorem State.bump_audio (c : Counter) (s : State) : (s.bump c).audio = s.audio := rfl
@[simp] theorem State.bump_ring (c : Counter) (s : State) : (s.bump c).ring = s.ring := rfl
@[simp] theorem State.bump_clock (c : Counter) (s : State) : (s.bump c).clock = s.clock := rfl
@[simp] theorem State.bump_tracker (c : Counter) (s : State) : (s.bump c).tracker = s.tracker := rfl
@[simp] theorem State.bump_result (c : Counter) (s : State) : (s.bump c).result = s.result := rfl
@[simp] theorem State.bump_marks (c : Counter) (s : State) : (s.bump c).marks = s.marks := rfl
@[simp] theorem State.bump_coverEnd (c : Counter) (s : State) : (s.bump c).coverEnd = s.coverEnd := rfl
@[simp] theorem State.bump_coverFar (c : Counter) (s : State) : (s.bump c).coverFar = s.coverFar := rfl
@[simp] theorem State.bump_follower (c : Counter) (s : State) : (s.bump c).follower = s.follower := rfl
@[simp] theorem State.bump_scenes (c : Counter) (s : State) : (s.bump c).scenes = s.scenes := rfl
@[simp] theorem State.bump_claimQueue (c : Counter) (s : State) : (s.bump c).claimQueue = s.claimQueue := rfl
@[simp] theorem State.bump_map (c : Counter) (s : State) : (s.bump c).map = s.map := rfl
@[simp] theorem State.bump_alloc (c : Counter) (s : State) : (s.bump c).alloc = s.alloc := rfl
@[simp] theorem State.bump_channels (c : Counter) (s : State) : (s.bump c).channels = s.channels := rfl
@[simp] theorem State.bump_mixer (c : Counter) (s : State) : (s.bump c).mixer = s.mixer := rfl
@[simp] theorem State.bump_arbiter (c : Counter) (s : State) : (s.bump c).arbiter = s.arbiter := rfl
@[simp] theorem State.bump_line (c : Counter) (s : State) : (s.bump c).line = s.line := rfl
@[simp] theorem State.bump_counters (c : Counter) (s : State) : (s.bump c).counters = s.counters.bump c := rfl
@[simp] theorem State.bump_owed (c : Counter) (s : State) : (s.bump c).owed = s.owed := rfl
@[simp] theorem State.bump_audioIn (c : Counter) (s : State) : (s.bump c).audioIn = s.audioIn := rfl
@[simp] theorem State.bump_lineIn (c : Counter) (s : State) : (s.bump c).lineIn = s.lineIn := rfl
@[simp] theorem State.bump_pending (c : Counter) (s : State) : (s.bump c).pending = s.pending := rfl

@[simp] theorem State.setLine_resetN (l : LineControl) (s : State) : (s.setLine l).resetN = s.resetN := rfl
@[simp] theorem State.setLine_straps (l : LineControl) (s : State) : (s.setLine l).straps = s.straps := rfl
@[simp] theorem State.setLine_npt (l : LineControl) (s : State) : (s.setLine l).npt = s.npt := rfl
@[simp] theorem State.setLine_audio (l : LineControl) (s : State) : (s.setLine l).audio = s.audio := rfl
@[simp] theorem State.setLine_ring (l : LineControl) (s : State) : (s.setLine l).ring = s.ring := rfl
@[simp] theorem State.setLine_clock (l : LineControl) (s : State) : (s.setLine l).clock = s.clock := rfl
@[simp] theorem State.setLine_tracker (l : LineControl) (s : State) : (s.setLine l).tracker = s.tracker := rfl
@[simp] theorem State.setLine_result (l : LineControl) (s : State) : (s.setLine l).result = s.result := rfl
@[simp] theorem State.setLine_marks (l : LineControl) (s : State) : (s.setLine l).marks = s.marks := rfl
@[simp] theorem State.setLine_coverEnd (l : LineControl) (s : State) : (s.setLine l).coverEnd = s.coverEnd := rfl
@[simp] theorem State.setLine_coverFar (l : LineControl) (s : State) : (s.setLine l).coverFar = s.coverFar := rfl
@[simp] theorem State.setLine_follower (l : LineControl) (s : State) : (s.setLine l).follower = s.follower := rfl
@[simp] theorem State.setLine_scenes (l : LineControl) (s : State) : (s.setLine l).scenes = s.scenes := rfl
@[simp] theorem State.setLine_claimQueue (l : LineControl) (s : State) : (s.setLine l).claimQueue = s.claimQueue := rfl
@[simp] theorem State.setLine_map (l : LineControl) (s : State) : (s.setLine l).map = s.map := rfl
@[simp] theorem State.setLine_alloc (l : LineControl) (s : State) : (s.setLine l).alloc = s.alloc := rfl
@[simp] theorem State.setLine_channels (l : LineControl) (s : State) : (s.setLine l).channels = s.channels := rfl
@[simp] theorem State.setLine_mixer (l : LineControl) (s : State) : (s.setLine l).mixer = s.mixer := rfl
@[simp] theorem State.setLine_arbiter (l : LineControl) (s : State) : (s.setLine l).arbiter = s.arbiter := rfl
@[simp] theorem State.setLine_line (l : LineControl) (s : State) : (s.setLine l).line = l := rfl
@[simp] theorem State.setLine_counters (l : LineControl) (s : State) : (s.setLine l).counters = s.counters := rfl
@[simp] theorem State.setLine_owed (l : LineControl) (s : State) : (s.setLine l).owed = s.owed := rfl
@[simp] theorem State.setLine_audioIn (l : LineControl) (s : State) : (s.setLine l).audioIn = s.audioIn := rfl
@[simp] theorem State.setLine_lineIn (l : LineControl) (s : State) : (s.setLine l).lineIn = s.lineIn := rfl
@[simp] theorem State.setLine_pending (l : LineControl) (s : State) : (s.setLine l).pending = s.pending := rfl

@[simp] theorem State.setChannel_resetN (v : Voice) (c : Channel) (s : State) :
    (s.setChannel v c).resetN = s.resetN :=
  rfl
@[simp] theorem State.setChannel_straps (v : Voice) (c : Channel) (s : State) :
    (s.setChannel v c).straps = s.straps :=
  rfl
@[simp] theorem State.setChannel_npt (v : Voice) (c : Channel) (s : State) : (s.setChannel v c).npt = s.npt := rfl
@[simp] theorem State.setChannel_audio (v : Voice) (c : Channel) (s : State) : (s.setChannel v c).audio = s.audio := rfl
@[simp] theorem State.setChannel_ring (v : Voice) (c : Channel) (s : State) : (s.setChannel v c).ring = s.ring := rfl
@[simp] theorem State.setChannel_clock (v : Voice) (c : Channel) (s : State) : (s.setChannel v c).clock = s.clock := rfl
@[simp] theorem State.setChannel_tracker (v : Voice) (c : Channel) (s : State) :
    (s.setChannel v c).tracker = s.tracker :=
  rfl
@[simp] theorem State.setChannel_result (v : Voice) (c : Channel) (s : State) :
    (s.setChannel v c).result = s.result :=
  rfl
@[simp] theorem State.setChannel_marks (v : Voice) (c : Channel) (s : State) : (s.setChannel v c).marks = s.marks := rfl
@[simp] theorem State.setChannel_coverEnd (v : Voice) (c : Channel) (s : State) :
    (s.setChannel v c).coverEnd = s.coverEnd :=
  rfl
@[simp] theorem State.setChannel_coverFar (v : Voice) (c : Channel) (s : State) :
    (s.setChannel v c).coverFar = s.coverFar :=
  rfl
@[simp] theorem State.setChannel_follower (v : Voice) (c : Channel) (s : State) :
    (s.setChannel v c).follower = s.follower :=
  rfl
@[simp] theorem State.setChannel_scenes (v : Voice) (c : Channel) (s : State) :
    (s.setChannel v c).scenes = s.scenes :=
  rfl
@[simp] theorem State.setChannel_claimQueue (v : Voice) (c : Channel) (s : State) :
    (s.setChannel v c).claimQueue = s.claimQueue :=
  rfl
@[simp] theorem State.setChannel_map (v : Voice) (c : Channel) (s : State) : (s.setChannel v c).map = s.map := rfl
@[simp] theorem State.setChannel_alloc (v : Voice) (c : Channel) (s : State) : (s.setChannel v c).alloc = s.alloc := rfl
@[simp] theorem State.setChannel_channels (v : Voice) (c : Channel) (s : State) :
    (s.setChannel v c).channels = s.channels.set v c :=
  rfl
@[simp] theorem State.setChannel_mixer (v : Voice) (c : Channel) (s : State) : (s.setChannel v c).mixer = s.mixer := rfl
@[simp] theorem State.setChannel_arbiter (v : Voice) (c : Channel) (s : State) :
    (s.setChannel v c).arbiter = s.arbiter :=
  rfl
@[simp] theorem State.setChannel_line (v : Voice) (c : Channel) (s : State) : (s.setChannel v c).line = s.line := rfl
@[simp] theorem State.setChannel_counters (v : Voice) (c : Channel) (s : State) :
    (s.setChannel v c).counters = s.counters :=
  rfl
@[simp] theorem State.setChannel_owed (v : Voice) (c : Channel) (s : State) : (s.setChannel v c).owed = s.owed := rfl
@[simp] theorem State.setChannel_audioIn (v : Voice) (c : Channel) (s : State) :
    (s.setChannel v c).audioIn = s.audioIn :=
  rfl
@[simp] theorem State.setChannel_lineIn (v : Voice) (c : Channel) (s : State) :
    (s.setChannel v c).lineIn = s.lineIn :=
  rfl
@[simp] theorem State.setChannel_pending (v : Voice) (c : Channel) (s : State) :
    (s.setChannel v c).pending = s.pending :=
  rfl

@[simp] theorem State.setVoice_resetN (v : Voice) (a : VoiceAlloc) (s : State) :
    (s.setVoice v a).resetN = s.resetN :=
  rfl
@[simp] theorem State.setVoice_straps (v : Voice) (a : VoiceAlloc) (s : State) :
    (s.setVoice v a).straps = s.straps :=
  rfl
@[simp] theorem State.setVoice_npt (v : Voice) (a : VoiceAlloc) (s : State) : (s.setVoice v a).npt = s.npt := rfl
@[simp] theorem State.setVoice_audio (v : Voice) (a : VoiceAlloc) (s : State) : (s.setVoice v a).audio = s.audio := rfl
@[simp] theorem State.setVoice_ring (v : Voice) (a : VoiceAlloc) (s : State) : (s.setVoice v a).ring = s.ring := rfl
@[simp] theorem State.setVoice_clock (v : Voice) (a : VoiceAlloc) (s : State) : (s.setVoice v a).clock = s.clock := rfl
@[simp] theorem State.setVoice_tracker (v : Voice) (a : VoiceAlloc) (s : State) :
    (s.setVoice v a).tracker = s.tracker :=
  rfl
@[simp] theorem State.setVoice_result (v : Voice) (a : VoiceAlloc) (s : State) :
    (s.setVoice v a).result = s.result :=
  rfl
@[simp] theorem State.setVoice_marks (v : Voice) (a : VoiceAlloc) (s : State) : (s.setVoice v a).marks = s.marks := rfl
@[simp] theorem State.setVoice_coverEnd (v : Voice) (a : VoiceAlloc) (s : State) :
    (s.setVoice v a).coverEnd = s.coverEnd :=
  rfl
@[simp] theorem State.setVoice_coverFar (v : Voice) (a : VoiceAlloc) (s : State) :
    (s.setVoice v a).coverFar = s.coverFar :=
  rfl
@[simp] theorem State.setVoice_follower (v : Voice) (a : VoiceAlloc) (s : State) :
    (s.setVoice v a).follower = s.follower :=
  rfl
@[simp] theorem State.setVoice_scenes (v : Voice) (a : VoiceAlloc) (s : State) :
    (s.setVoice v a).scenes = s.scenes :=
  rfl
@[simp] theorem State.setVoice_claimQueue (v : Voice) (a : VoiceAlloc) (s : State) :
    (s.setVoice v a).claimQueue = s.claimQueue :=
  rfl
@[simp] theorem State.setVoice_map (v : Voice) (a : VoiceAlloc) (s : State) : (s.setVoice v a).map = s.map := rfl
@[simp] theorem State.setVoice_alloc (v : Voice) (a : VoiceAlloc) (s : State) :
    (s.setVoice v a).alloc = { s.alloc with voices := s.alloc.voices.set v a } :=
  rfl
@[simp] theorem State.setVoice_channels (v : Voice) (a : VoiceAlloc) (s : State) :
    (s.setVoice v a).channels = s.channels :=
  rfl
@[simp] theorem State.setVoice_mixer (v : Voice) (a : VoiceAlloc) (s : State) : (s.setVoice v a).mixer = s.mixer := rfl
@[simp] theorem State.setVoice_arbiter (v : Voice) (a : VoiceAlloc) (s : State) :
    (s.setVoice v a).arbiter = s.arbiter :=
  rfl
@[simp] theorem State.setVoice_line (v : Voice) (a : VoiceAlloc) (s : State) : (s.setVoice v a).line = s.line := rfl
@[simp] theorem State.setVoice_counters (v : Voice) (a : VoiceAlloc) (s : State) :
    (s.setVoice v a).counters = s.counters :=
  rfl
@[simp] theorem State.setVoice_owed (v : Voice) (a : VoiceAlloc) (s : State) : (s.setVoice v a).owed = s.owed := rfl
@[simp] theorem State.setVoice_audioIn (v : Voice) (a : VoiceAlloc) (s : State) :
    (s.setVoice v a).audioIn = s.audioIn :=
  rfl
@[simp] theorem State.setVoice_lineIn (v : Voice) (a : VoiceAlloc) (s : State) :
    (s.setVoice v a).lineIn = s.lineIn :=
  rfl
@[simp] theorem State.setVoice_pending (v : Voice) (a : VoiceAlloc) (s : State) :
    (s.setVoice v a).pending = s.pending :=
  rfl

@[simp] theorem State.request_resetN (j : Job) (s : State) : (s.request j).resetN = s.resetN := rfl
@[simp] theorem State.request_straps (j : Job) (s : State) : (s.request j).straps = s.straps := rfl
@[simp] theorem State.request_npt (j : Job) (s : State) : (s.request j).npt = s.npt := rfl
@[simp] theorem State.request_audio (j : Job) (s : State) : (s.request j).audio = s.audio := rfl
@[simp] theorem State.request_ring (j : Job) (s : State) : (s.request j).ring = s.ring := rfl
@[simp] theorem State.request_clock (j : Job) (s : State) : (s.request j).clock = s.clock := rfl
@[simp] theorem State.request_tracker (j : Job) (s : State) : (s.request j).tracker = s.tracker := rfl
@[simp] theorem State.request_result (j : Job) (s : State) : (s.request j).result = s.result := rfl
@[simp] theorem State.request_marks (j : Job) (s : State) : (s.request j).marks = s.marks := rfl
@[simp] theorem State.request_coverEnd (j : Job) (s : State) : (s.request j).coverEnd = s.coverEnd := rfl
@[simp] theorem State.request_coverFar (j : Job) (s : State) : (s.request j).coverFar = s.coverFar := rfl
@[simp] theorem State.request_follower (j : Job) (s : State) : (s.request j).follower = s.follower := rfl
@[simp] theorem State.request_scenes (j : Job) (s : State) : (s.request j).scenes = s.scenes := rfl
@[simp] theorem State.request_claimQueue (j : Job) (s : State) : (s.request j).claimQueue = s.claimQueue := rfl
@[simp] theorem State.request_map (j : Job) (s : State) : (s.request j).map = s.map := rfl
@[simp] theorem State.request_alloc (j : Job) (s : State) : (s.request j).alloc = s.alloc := rfl
@[simp] theorem State.request_channels (j : Job) (s : State) : (s.request j).channels = s.channels := rfl
@[simp] theorem State.request_mixer (j : Job) (s : State) : (s.request j).mixer = s.mixer := rfl
@[simp] theorem State.request_arbiter (j : Job) (s : State) :
    (s.request j).arbiter = ({ s.arbiter with list := s.arbiter.list ++ [j] } : Arbiter).grant :=
  rfl
@[simp] theorem State.request_line (j : Job) (s : State) : (s.request j).line = s.line := rfl
@[simp] theorem State.request_counters (j : Job) (s : State) : (s.request j).counters = s.counters := rfl
@[simp] theorem State.request_owed (j : Job) (s : State) : (s.request j).owed = s.owed := rfl
@[simp] theorem State.request_audioIn (j : Job) (s : State) : (s.request j).audioIn = s.audioIn := rfl
@[simp] theorem State.request_lineIn (j : Job) (s : State) : (s.request j).lineIn = s.lineIn := rfl
@[simp] theorem State.request_pending (j : Job) (s : State) : (s.request j).pending = s.pending := rfl

@[simp] theorem State.grant_resetN (s : State) : s.grant.resetN = s.resetN := rfl
@[simp] theorem State.grant_straps (s : State) : s.grant.straps = s.straps := rfl
@[simp] theorem State.grant_npt (s : State) : s.grant.npt = s.npt := rfl
@[simp] theorem State.grant_audio (s : State) : s.grant.audio = s.audio := rfl
@[simp] theorem State.grant_ring (s : State) : s.grant.ring = s.ring := rfl
@[simp] theorem State.grant_clock (s : State) : s.grant.clock = s.clock := rfl
@[simp] theorem State.grant_tracker (s : State) : s.grant.tracker = s.tracker := rfl
@[simp] theorem State.grant_result (s : State) : s.grant.result = s.result := rfl
@[simp] theorem State.grant_marks (s : State) : s.grant.marks = s.marks := rfl
@[simp] theorem State.grant_coverEnd (s : State) : s.grant.coverEnd = s.coverEnd := rfl
@[simp] theorem State.grant_coverFar (s : State) : s.grant.coverFar = s.coverFar := rfl
@[simp] theorem State.grant_follower (s : State) : s.grant.follower = s.follower := rfl
@[simp] theorem State.grant_scenes (s : State) : s.grant.scenes = s.scenes := rfl
@[simp] theorem State.grant_claimQueue (s : State) : s.grant.claimQueue = s.claimQueue := rfl
@[simp] theorem State.grant_map (s : State) : s.grant.map = s.map := rfl
@[simp] theorem State.grant_alloc (s : State) : s.grant.alloc = s.alloc := rfl
@[simp] theorem State.grant_channels (s : State) : s.grant.channels = s.channels := rfl
@[simp] theorem State.grant_mixer (s : State) : s.grant.mixer = s.mixer := rfl
@[simp] theorem State.grant_arbiter (s : State) : s.grant.arbiter = s.arbiter.grant := rfl
@[simp] theorem State.grant_line (s : State) : s.grant.line = s.line := rfl
@[simp] theorem State.grant_counters (s : State) : s.grant.counters = s.counters := rfl
@[simp] theorem State.grant_owed (s : State) : s.grant.owed = s.owed := rfl
@[simp] theorem State.grant_audioIn (s : State) : s.grant.audioIn = s.audioIn := rfl
@[simp] theorem State.grant_lineIn (s : State) : s.grant.lineIn = s.lineIn := rfl
@[simp] theorem State.grant_pending (s : State) : s.grant.pending = s.pending := rfl

@[simp] theorem State.finishJob_resetN (s : State) : s.finishJob.resetN = s.resetN := rfl
@[simp] theorem State.finishJob_straps (s : State) : s.finishJob.straps = s.straps := rfl
@[simp] theorem State.finishJob_npt (s : State) : s.finishJob.npt = s.npt := rfl
@[simp] theorem State.finishJob_audio (s : State) : s.finishJob.audio = s.audio := rfl
@[simp] theorem State.finishJob_ring (s : State) : s.finishJob.ring = s.ring := rfl
@[simp] theorem State.finishJob_clock (s : State) : s.finishJob.clock = s.clock := rfl
@[simp] theorem State.finishJob_tracker (s : State) : s.finishJob.tracker = s.tracker := rfl
@[simp] theorem State.finishJob_result (s : State) : s.finishJob.result = s.result := rfl
@[simp] theorem State.finishJob_marks (s : State) : s.finishJob.marks = s.marks := rfl
@[simp] theorem State.finishJob_coverEnd (s : State) : s.finishJob.coverEnd = s.coverEnd := rfl
@[simp] theorem State.finishJob_coverFar (s : State) : s.finishJob.coverFar = s.coverFar := rfl
@[simp] theorem State.finishJob_follower (s : State) : s.finishJob.follower = s.follower := rfl
@[simp] theorem State.finishJob_scenes (s : State) : s.finishJob.scenes = s.scenes := rfl
@[simp] theorem State.finishJob_claimQueue (s : State) : s.finishJob.claimQueue = s.claimQueue := rfl
@[simp] theorem State.finishJob_map (s : State) : s.finishJob.map = s.map := rfl
@[simp] theorem State.finishJob_alloc (s : State) : s.finishJob.alloc = s.alloc := rfl
@[simp] theorem State.finishJob_channels (s : State) : s.finishJob.channels = s.channels := rfl
@[simp] theorem State.finishJob_mixer (s : State) : s.finishJob.mixer = s.mixer := rfl
@[simp] theorem State.finishJob_arbiter (s : State) :
    s.finishJob.arbiter = ({ s.arbiter with running := none } : Arbiter).grant :=
  rfl
@[simp] theorem State.finishJob_line (s : State) : s.finishJob.line = s.line := rfl
@[simp] theorem State.finishJob_counters (s : State) : s.finishJob.counters = s.counters := rfl
@[simp] theorem State.finishJob_owed (s : State) : s.finishJob.owed = s.owed := rfl
@[simp] theorem State.finishJob_audioIn (s : State) : s.finishJob.audioIn = s.audioIn := rfl
@[simp] theorem State.finishJob_lineIn (s : State) : s.finishJob.lineIn = s.lineIn := rfl
@[simp] theorem State.finishJob_pending (s : State) : s.finishJob.pending = s.pending := rfl

@[simp] theorem State.keepRecord_resetN (r : ClaimRecord) (s : State) : (s.keepRecord r).resetN = s.resetN := rfl
@[simp] theorem State.keepRecord_straps (r : ClaimRecord) (s : State) : (s.keepRecord r).straps = s.straps := rfl
@[simp] theorem State.keepRecord_npt (r : ClaimRecord) (s : State) : (s.keepRecord r).npt = s.npt := rfl
@[simp] theorem State.keepRecord_audio (r : ClaimRecord) (s : State) : (s.keepRecord r).audio = s.audio := rfl
@[simp] theorem State.keepRecord_ring (r : ClaimRecord) (s : State) : (s.keepRecord r).ring = s.ring := rfl
@[simp] theorem State.keepRecord_clock (r : ClaimRecord) (s : State) : (s.keepRecord r).clock = s.clock := rfl
@[simp] theorem State.keepRecord_tracker (r : ClaimRecord) (s : State) : (s.keepRecord r).tracker = s.tracker := rfl
@[simp] theorem State.keepRecord_result (r : ClaimRecord) (s : State) : (s.keepRecord r).result = s.result := rfl
@[simp] theorem State.keepRecord_marks (r : ClaimRecord) (s : State) : (s.keepRecord r).marks = s.marks := rfl
@[simp] theorem State.keepRecord_coverEnd (r : ClaimRecord) (s : State) : (s.keepRecord r).coverEnd = s.coverEnd := rfl
@[simp] theorem State.keepRecord_coverFar (r : ClaimRecord) (s : State) : (s.keepRecord r).coverFar = s.coverFar := rfl
@[simp] theorem State.keepRecord_follower (r : ClaimRecord) (s : State) : (s.keepRecord r).follower = s.follower := rfl
@[simp] theorem State.keepRecord_scenes (r : ClaimRecord) (s : State) : (s.keepRecord r).scenes = s.scenes := rfl
@[simp] theorem State.keepRecord_claimQueue (r : ClaimRecord) (s : State) :
    (s.keepRecord r).claimQueue = s.claimQueue :=
  rfl
@[simp] theorem State.keepRecord_map (r : ClaimRecord) (s : State) : (s.keepRecord r).map = s.map := rfl
@[simp] theorem State.keepRecord_alloc (r : ClaimRecord) (s : State) :
    (s.keepRecord r).alloc = { s.alloc with record := r } :=
  rfl
@[simp] theorem State.keepRecord_channels (r : ClaimRecord) (s : State) : (s.keepRecord r).channels = s.channels := rfl
@[simp] theorem State.keepRecord_mixer (r : ClaimRecord) (s : State) : (s.keepRecord r).mixer = s.mixer := rfl
@[simp] theorem State.keepRecord_arbiter (r : ClaimRecord) (s : State) : (s.keepRecord r).arbiter = s.arbiter := rfl
@[simp] theorem State.keepRecord_line (r : ClaimRecord) (s : State) : (s.keepRecord r).line = s.line := rfl
@[simp] theorem State.keepRecord_counters (r : ClaimRecord) (s : State) : (s.keepRecord r).counters = s.counters := rfl
@[simp] theorem State.keepRecord_owed (r : ClaimRecord) (s : State) : (s.keepRecord r).owed = s.owed := rfl
@[simp] theorem State.keepRecord_audioIn (r : ClaimRecord) (s : State) : (s.keepRecord r).audioIn = s.audioIn := rfl
@[simp] theorem State.keepRecord_lineIn (r : ClaimRecord) (s : State) : (s.keepRecord r).lineIn = s.lineIn := rfl
@[simp] theorem State.keepRecord_pending (r : ClaimRecord) (s : State) : (s.keepRecord r).pending = s.pending := rfl

@[simp] theorem State.placeRecord_resetN (s : State) : s.placeRecord.resetN = s.resetN := rfl
@[simp] theorem State.placeRecord_straps (s : State) : s.placeRecord.straps = s.straps := rfl
@[simp] theorem State.placeRecord_npt (s : State) : s.placeRecord.npt = s.npt := rfl
@[simp] theorem State.placeRecord_audio (s : State) : s.placeRecord.audio = s.audio := rfl
@[simp] theorem State.placeRecord_ring (s : State) : s.placeRecord.ring = s.ring := rfl
@[simp] theorem State.placeRecord_clock (s : State) : s.placeRecord.clock = s.clock := rfl
@[simp] theorem State.placeRecord_tracker (s : State) : s.placeRecord.tracker = s.tracker := rfl
@[simp] theorem State.placeRecord_result (s : State) : s.placeRecord.result = s.result := rfl
@[simp] theorem State.placeRecord_marks (s : State) : s.placeRecord.marks = s.marks := rfl
@[simp] theorem State.placeRecord_coverEnd (s : State) : s.placeRecord.coverEnd = s.coverEnd := rfl
@[simp] theorem State.placeRecord_coverFar (s : State) : s.placeRecord.coverFar = s.coverFar := rfl
@[simp] theorem State.placeRecord_follower (s : State) : s.placeRecord.follower = s.follower := rfl
@[simp] theorem State.placeRecord_scenes (s : State) : s.placeRecord.scenes = s.scenes := rfl
@[simp] theorem State.placeRecord_claimQueue (s : State) : s.placeRecord.claimQueue = s.claimQueue := rfl
@[simp] theorem State.placeRecord_map (s : State) : s.placeRecord.map = s.map := rfl
@[simp] theorem State.placeRecord_alloc (s : State) : s.placeRecord.alloc = { s.alloc with sincePlacement := 0 } := rfl
@[simp] theorem State.placeRecord_channels (s : State) : s.placeRecord.channels = s.channels := rfl
@[simp] theorem State.placeRecord_mixer (s : State) : s.placeRecord.mixer = s.mixer := rfl
@[simp] theorem State.placeRecord_arbiter (s : State) : s.placeRecord.arbiter = s.arbiter := rfl
@[simp] theorem State.placeRecord_line (s : State) : s.placeRecord.line = s.line.placeClaim s.alloc.record := rfl
@[simp] theorem State.placeRecord_counters (s : State) : s.placeRecord.counters = s.counters := rfl
@[simp] theorem State.placeRecord_owed (s : State) : s.placeRecord.owed = s.owed := rfl
@[simp] theorem State.placeRecord_audioIn (s : State) : s.placeRecord.audioIn = s.audioIn := rfl
@[simp] theorem State.placeRecord_lineIn (s : State) : s.placeRecord.lineIn = s.lineIn := rfl
@[simp] theorem State.placeRecord_pending (s : State) : s.placeRecord.pending = s.pending := rfl

@[simp] theorem State.clearTargets_resetN (s : State) : s.clearTargets.resetN = s.resetN := rfl
@[simp] theorem State.clearTargets_straps (s : State) : s.clearTargets.straps = s.straps := rfl
@[simp] theorem State.clearTargets_npt (s : State) : s.clearTargets.npt = s.npt := rfl
@[simp] theorem State.clearTargets_audio (s : State) : s.clearTargets.audio = s.audio := rfl
@[simp] theorem State.clearTargets_ring (s : State) : s.clearTargets.ring = s.ring := rfl
@[simp] theorem State.clearTargets_clock (s : State) : s.clearTargets.clock = s.clock := rfl
@[simp] theorem State.clearTargets_tracker (s : State) : s.clearTargets.tracker = s.tracker := rfl
@[simp] theorem State.clearTargets_result (s : State) : s.clearTargets.result = s.result := rfl
@[simp] theorem State.clearTargets_marks (s : State) : s.clearTargets.marks = s.marks := rfl
@[simp] theorem State.clearTargets_coverEnd (s : State) : s.clearTargets.coverEnd = s.coverEnd := rfl
@[simp] theorem State.clearTargets_coverFar (s : State) : s.clearTargets.coverFar = s.coverFar := rfl
@[simp] theorem State.clearTargets_follower (s : State) : s.clearTargets.follower = s.follower := rfl
@[simp] theorem State.clearTargets_scenes (s : State) : s.clearTargets.scenes = s.scenes := rfl
@[simp] theorem State.clearTargets_claimQueue (s : State) : s.clearTargets.claimQueue = s.claimQueue := rfl
@[simp] theorem State.clearTargets_map (s : State) : s.clearTargets.map = s.map := rfl
@[simp] theorem State.clearTargets_alloc (s : State) :
    s.clearTargets.alloc = { s.alloc with voices := Quad.const clearedVoice } :=
  rfl
@[simp] theorem State.clearTargets_channels (s : State) : s.clearTargets.channels = s.channels := rfl
@[simp] theorem State.clearTargets_mixer (s : State) : s.clearTargets.mixer = s.mixer := rfl
@[simp] theorem State.clearTargets_arbiter (s : State) : s.clearTargets.arbiter = s.arbiter := rfl
@[simp] theorem State.clearTargets_line (s : State) : s.clearTargets.line = s.line := rfl
@[simp] theorem State.clearTargets_counters (s : State) : s.clearTargets.counters = s.counters := rfl
@[simp] theorem State.clearTargets_owed (s : State) : s.clearTargets.owed = s.owed := rfl
@[simp] theorem State.clearTargets_audioIn (s : State) : s.clearTargets.audioIn = s.audioIn := rfl
@[simp] theorem State.clearTargets_lineIn (s : State) : s.clearTargets.lineIn = s.lineIn := rfl
@[simp] theorem State.clearTargets_pending (s : State) : s.clearTargets.pending = s.pending := rfl

@[simp] theorem State.emptyMarks_resetN (s : State) : s.emptyMarks.resetN = s.resetN := rfl
@[simp] theorem State.emptyMarks_straps (s : State) : s.emptyMarks.straps = s.straps := rfl
@[simp] theorem State.emptyMarks_npt (s : State) : s.emptyMarks.npt = s.npt := rfl
@[simp] theorem State.emptyMarks_audio (s : State) : s.emptyMarks.audio = s.audio := rfl
@[simp] theorem State.emptyMarks_ring (s : State) : s.emptyMarks.ring = s.ring := rfl
@[simp] theorem State.emptyMarks_clock (s : State) : s.emptyMarks.clock = s.clock := rfl
@[simp] theorem State.emptyMarks_tracker (s : State) : s.emptyMarks.tracker = s.tracker := rfl
@[simp] theorem State.emptyMarks_result (s : State) : s.emptyMarks.result = s.result := rfl
@[simp] theorem State.emptyMarks_marks (s : State) : s.emptyMarks.marks = [] := rfl
@[simp] theorem State.emptyMarks_coverEnd (s : State) : s.emptyMarks.coverEnd = none := rfl
@[simp] theorem State.emptyMarks_coverFar (s : State) : s.emptyMarks.coverFar = false := rfl
@[simp] theorem State.emptyMarks_follower (s : State) : s.emptyMarks.follower = s.follower := rfl
@[simp] theorem State.emptyMarks_scenes (s : State) : s.emptyMarks.scenes = s.scenes := rfl
@[simp] theorem State.emptyMarks_claimQueue (s : State) : s.emptyMarks.claimQueue = s.claimQueue := rfl
@[simp] theorem State.emptyMarks_map (s : State) : s.emptyMarks.map = s.map := rfl
@[simp] theorem State.emptyMarks_alloc (s : State) : s.emptyMarks.alloc = s.alloc := rfl
@[simp] theorem State.emptyMarks_channels (s : State) : s.emptyMarks.channels = s.channels := rfl
@[simp] theorem State.emptyMarks_mixer (s : State) : s.emptyMarks.mixer = s.mixer := rfl
@[simp] theorem State.emptyMarks_arbiter (s : State) : s.emptyMarks.arbiter = s.arbiter := rfl
@[simp] theorem State.emptyMarks_line (s : State) : s.emptyMarks.line = s.line := rfl
@[simp] theorem State.emptyMarks_counters (s : State) : s.emptyMarks.counters = s.counters := rfl
@[simp] theorem State.emptyMarks_owed (s : State) : s.emptyMarks.owed = s.owed := rfl
@[simp] theorem State.emptyMarks_audioIn (s : State) : s.emptyMarks.audioIn = s.audioIn := rfl
@[simp] theorem State.emptyMarks_lineIn (s : State) : s.emptyMarks.lineIn = s.lineIn := rfl
@[simp] theorem State.emptyMarks_pending (s : State) : s.emptyMarks.pending = s.pending := rfl

@[simp] theorem State.holdScene_resetN (sc : Scene) (w : SwitchCondition) (s : State) :
    (s.holdScene sc w).resetN = s.resetN :=
  rfl
@[simp] theorem State.holdScene_straps (sc : Scene) (w : SwitchCondition) (s : State) :
    (s.holdScene sc w).straps = s.straps :=
  rfl
@[simp] theorem State.holdScene_npt (sc : Scene) (w : SwitchCondition) (s : State) :
    (s.holdScene sc w).npt = s.npt :=
  rfl
@[simp] theorem State.holdScene_audio (sc : Scene) (w : SwitchCondition) (s : State) :
    (s.holdScene sc w).audio = s.audio :=
  rfl
@[simp] theorem State.holdScene_ring (sc : Scene) (w : SwitchCondition) (s : State) :
    (s.holdScene sc w).ring = s.ring :=
  rfl
@[simp] theorem State.holdScene_clock (sc : Scene) (w : SwitchCondition) (s : State) :
    (s.holdScene sc w).clock = s.clock :=
  rfl
@[simp] theorem State.holdScene_tracker (sc : Scene) (w : SwitchCondition) (s : State) :
    (s.holdScene sc w).tracker = s.tracker :=
  rfl
@[simp] theorem State.holdScene_result (sc : Scene) (w : SwitchCondition) (s : State) :
    (s.holdScene sc w).result = s.result :=
  rfl
@[simp] theorem State.holdScene_marks (sc : Scene) (w : SwitchCondition) (s : State) :
    (s.holdScene sc w).marks = s.marks :=
  rfl
@[simp] theorem State.holdScene_coverEnd (sc : Scene) (w : SwitchCondition) (s : State) :
    (s.holdScene sc w).coverEnd = s.coverEnd :=
  rfl
@[simp] theorem State.holdScene_coverFar (sc : Scene) (w : SwitchCondition) (s : State) :
    (s.holdScene sc w).coverFar = s.coverFar :=
  rfl
@[simp] theorem State.holdScene_follower (sc : Scene) (w : SwitchCondition) (s : State) :
    (s.holdScene sc w).follower = s.follower :=
  rfl
@[simp] theorem State.holdScene_scenes (sc : Scene) (w : SwitchCondition) (s : State) :
    (s.holdScene sc w).scenes = { s.scenes with pending := some { scene := sc, condition := w } } :=
  rfl
@[simp] theorem State.holdScene_claimQueue (sc : Scene) (w : SwitchCondition) (s : State) :
    (s.holdScene sc w).claimQueue = s.claimQueue :=
  rfl
@[simp] theorem State.holdScene_map (sc : Scene) (w : SwitchCondition) (s : State) :
    (s.holdScene sc w).map = s.map :=
  rfl
@[simp] theorem State.holdScene_alloc (sc : Scene) (w : SwitchCondition) (s : State) :
    (s.holdScene sc w).alloc = s.alloc :=
  rfl
@[simp] theorem State.holdScene_channels (sc : Scene) (w : SwitchCondition) (s : State) :
    (s.holdScene sc w).channels = s.channels :=
  rfl
@[simp] theorem State.holdScene_mixer (sc : Scene) (w : SwitchCondition) (s : State) :
    (s.holdScene sc w).mixer = s.mixer :=
  rfl
@[simp] theorem State.holdScene_arbiter (sc : Scene) (w : SwitchCondition) (s : State) :
    (s.holdScene sc w).arbiter = s.arbiter :=
  rfl
@[simp] theorem State.holdScene_line (sc : Scene) (w : SwitchCondition) (s : State) :
    (s.holdScene sc w).line = s.line :=
  rfl
@[simp] theorem State.holdScene_counters (sc : Scene) (w : SwitchCondition) (s : State) :
    (s.holdScene sc w).counters = s.counters :=
  rfl
@[simp] theorem State.holdScene_owed (sc : Scene) (w : SwitchCondition) (s : State) :
    (s.holdScene sc w).owed = s.owed :=
  rfl
@[simp] theorem State.holdScene_audioIn (sc : Scene) (w : SwitchCondition) (s : State) :
    (s.holdScene sc w).audioIn = s.audioIn :=
  rfl
@[simp] theorem State.holdScene_lineIn (sc : Scene) (w : SwitchCondition) (s : State) :
    (s.holdScene sc w).lineIn = s.lineIn :=
  rfl
@[simp] theorem State.holdScene_pending (sc : Scene) (w : SwitchCondition) (s : State) :
    (s.holdScene sc w).pending = s.pending :=
  rfl

@[simp] theorem State.writeResult_resetN (r : ResultRecord) (s : State) : (s.writeResult r).resetN = s.resetN := rfl
@[simp] theorem State.writeResult_straps (r : ResultRecord) (s : State) : (s.writeResult r).straps = s.straps := rfl
@[simp] theorem State.writeResult_npt (r : ResultRecord) (s : State) : (s.writeResult r).npt = s.npt := rfl
@[simp] theorem State.writeResult_audio (r : ResultRecord) (s : State) : (s.writeResult r).audio = s.audio := rfl
@[simp] theorem State.writeResult_ring (r : ResultRecord) (s : State) : (s.writeResult r).ring = s.ring := rfl
@[simp] theorem State.writeResult_clock (r : ResultRecord) (s : State) : (s.writeResult r).clock = s.clock := rfl
@[simp] theorem State.writeResult_tracker (r : ResultRecord) (s : State) : (s.writeResult r).tracker = .waiting := rfl
@[simp] theorem State.writeResult_result (r : ResultRecord) (s : State) : (s.writeResult r).result = r := rfl
@[simp] theorem State.writeResult_marks (r : ResultRecord) (s : State) :
    (s.writeResult r).marks = appendMarks s.clock r.frame s.coverEnd s.coverFar s.marks r.reason :=
  rfl
@[simp] theorem State.writeResult_coverEnd (r : ResultRecord) (s : State) :
    (s.writeResult r).coverEnd = some r.frame.sixteenths :=
  rfl
@[simp] theorem State.writeResult_coverFar (r : ResultRecord) (s : State) : (s.writeResult r).coverFar = false := rfl
@[simp] theorem State.writeResult_follower (r : ResultRecord) (s : State) :
    (s.writeResult r).follower = s.follower :=
  rfl
@[simp] theorem State.writeResult_scenes (r : ResultRecord) (s : State) : (s.writeResult r).scenes = s.scenes := rfl
@[simp] theorem State.writeResult_claimQueue (r : ResultRecord) (s : State) :
    (s.writeResult r).claimQueue = s.claimQueue :=
  rfl
@[simp] theorem State.writeResult_map (r : ResultRecord) (s : State) : (s.writeResult r).map = s.map := rfl
@[simp] theorem State.writeResult_alloc (r : ResultRecord) (s : State) : (s.writeResult r).alloc = s.alloc := rfl
@[simp] theorem State.writeResult_channels (r : ResultRecord) (s : State) :
    (s.writeResult r).channels = s.channels :=
  rfl
@[simp] theorem State.writeResult_mixer (r : ResultRecord) (s : State) : (s.writeResult r).mixer = s.mixer := rfl
@[simp] theorem State.writeResult_arbiter (r : ResultRecord) (s : State) : (s.writeResult r).arbiter = s.arbiter := rfl
@[simp] theorem State.writeResult_line (r : ResultRecord) (s : State) : (s.writeResult r).line = s.line := rfl
@[simp] theorem State.writeResult_counters (r : ResultRecord) (s : State) :
    (s.writeResult r).counters = s.counters :=
  rfl
@[simp] theorem State.writeResult_owed (r : ResultRecord) (s : State) : (s.writeResult r).owed = s.owed := rfl
@[simp] theorem State.writeResult_audioIn (r : ResultRecord) (s : State) : (s.writeResult r).audioIn = s.audioIn := rfl
@[simp] theorem State.writeResult_lineIn (r : ResultRecord) (s : State) : (s.writeResult r).lineIn = s.lineIn := rfl
@[simp] theorem State.writeResult_pending (r : ResultRecord) (s : State) : (s.writeResult r).pending = s.pending := rfl

/-! ### Channels and voices -/

@[simp] theorem State.channel_setChannel_same (v : Voice) (c : Channel) (s : State) :
    (s.setChannel v c).channel v = c := by
  simp [State.channel]

theorem State.channel_setChannel (v w : Voice) (c : Channel) (s : State) :
    (s.setChannel v c).channel w = if w = v then c else s.channel w := by
  simp [State.channel, Quad.get_set]

@[simp] theorem State.voice_setVoice_same (v : Voice) (a : VoiceAlloc) (s : State) : (s.setVoice v a).voice v = a := by
  simp [State.voice]

theorem State.voice_setVoice (v w : Voice) (a : VoiceAlloc) (s : State) :
    (s.setVoice v a).voice w = if w = v then a else s.voice w := by
  simp [State.voice, Quad.get_set]

@[simp] theorem State.voice_setChannel (v w : Voice) (c : Channel) (s : State) :
    (s.setChannel v c).voice w = s.voice w := rfl

@[simp] theorem State.channel_setVoice (v w : Voice) (a : VoiceAlloc) (s : State) :
    (s.setVoice v a).channel w = s.channel w := rfl

@[simp] theorem State.channel_bump (c : Counter) (w : Voice) (s : State) : (s.bump c).channel w = s.channel w := rfl

@[simp] theorem State.voice_bump (c : Counter) (w : Voice) (s : State) : (s.bump c).voice w = s.voice w := rfl

@[simp] theorem State.channel_request (j : Job) (w : Voice) (s : State) : (s.request j).channel w = s.channel w := rfl

@[simp] theorem State.voice_request (j : Job) (w : Voice) (s : State) : (s.request j).voice w = s.voice w := rfl

@[simp] theorem State.setChannel_setChannel (v : Voice) (c d : Channel) (s : State) :
    (s.setChannel v c).setChannel v d = s.setChannel v d := by
  simp [State.setChannel]

@[simp] theorem State.setChannel_channel (v : Voice) (s : State) : s.setChannel v (s.channel v) = s := by
  simp [State.setChannel, State.channel]

end Sys2Proof.Machine
end

