-- ==== Sys2Proof/Laws/Cycle.lean ====
section
/-! SUPPORT. Laws/Cycle.lean: what the grain cycle's operations can do, said once: they move the steps, marks and registers
of the channels, the arbiter and the counters, and nothing else. -/

namespace Sys2Proof.Machine

/-! ### Counters -/

/-- No counter of c falls in d, and none passes its limit. -/
def Counters.Grown (c d : Counters) : Prop := ∀ k, c.get k ≤ d.get k ∧ (c.get k ≤ 65535 → d.get k ≤ 65535)

theorem Counters.Grown.refl (c : Counters) : c.Grown c := fun _ => ⟨le_refl _, id⟩

theorem Counters.Grown.trans {c d e : Counters} (h : c.Grown d) (h' : d.Grown e) : c.Grown e :=
  fun k => ⟨le_trans (h k).1 (h' k).1, fun hk => (h' k).2 ((h k).2 hk)⟩

theorem satSucc_grown (n : Nat) : n ≤ satSucc 65535 n ∧ (n ≤ 65535 → satSucc 65535 n ≤ 65535) := by
  unfold satSucc
  split <;> omega

theorem Counters.grown_bump (c : Counters) (k : Counter) : c.Grown (c.bump k) := by
  intro j
  cases k <;> cases j <;>
    first
      | exact ⟨le_refl _, id⟩
      | exact satSucc_grown _

/-- Increments of one counter change no other field. -/
theorem State.bumpTimes_eq (k : Counter) (n : Nat) (s : State) :
    State.bumpTimes k n s = { s with counters := (State.bumpTimes k n s).counters } := by
  induction n generalizing s with
  | zero => rfl
  | succ n ih => exact ih (s.bump k)

theorem State.bumpTimes_grown (k : Counter) (n : Nat) (s : State) :
    s.counters.Grown (State.bumpTimes k n s).counters := by
  induction n generalizing s with
  | zero => exact .refl _
  | succ n ih => exact (s.counters.grown_bump k).trans (ih (s.bump k))

/-! ### Moves of the grain cycle -/

/-- A channel whose step, marks and registers alone have moved; its step is the one it had or the posted one. -/
def Channel.Moved (posted : Option Nat) (c d : Channel) : Prop :=
  d = { c with
    stepInForce := d.stepInForce, outputMark := d.outputMark, placementPoint := d.placementPoint,
    current := d.current, next := d.next } ∧
  (d.stepInForce = c.stepInForce ∨ (posted.isSome = true ∧ d.stepInForce = posted))

theorem Channel.Moved.refl (posted : Option Nat) (c : Channel) : c.Moved posted c := ⟨rfl, .inl rfl⟩

theorem Channel.Moved.trans {posted : Option Nat} {c d e : Channel} (h : c.Moved posted d) (h' : d.Moved posted e) :
    c.Moved posted e := by
  refine ⟨h'.1.trans ?_, ?_⟩
  · rw [h.1]
  · rcases h'.2 with h1 | h1
    · rcases h.2 with h2 | h2
      · exact .inl (h1.trans h2)
      · exact .inr ⟨h2.1, h1.trans h2.2⟩
    · exact .inr h1

theorem Channel.Moved.state {posted : Option Nat} {c d : Channel} (h : c.Moved posted d) : d.state = c.state := by
  rw [h.1]

theorem Channel.Moved.ramp {posted : Option Nat} {c d : Channel} (h : c.Moved posted d) : d.ramp = c.ramp := by
  rw [h.1]

theorem Channel.Moved.leaveRate {posted : Option Nat} {c d : Channel} (h : c.Moved posted d) :
    d.leaveRate = c.leaveRate := by
  rw [h.1]

theorem Channel.Moved.overlap {posted : Option Nat} {c d : Channel} (h : c.Moved posted d) : d.overlap = c.overlap := by
  rw [h.1]

/-- The channels, the arbiter and the counters alone have changed. -/
def State.OnRenderer (s t : State) : Prop :=
  t = { s with channels := t.channels, arbiter := t.arbiter, counters := t.counters } ∧ s.counters.Grown t.counters

theorem State.OnRenderer.refl (s : State) : s.OnRenderer s := ⟨rfl, .refl _⟩

theorem State.OnRenderer.trans {s t u : State} (h : s.OnRenderer t) (h' : t.OnRenderer u) : s.OnRenderer u := by
  refine ⟨h'.1.trans ?_, h.2.trans h'.2⟩
  rw [h.1]

/-- The grain cycle has moved, at the renderer alone. -/
def State.CycleMoved (s t : State) : Prop :=
  s.OnRenderer t ∧ ∀ w, (s.channel w).Moved (s.voice w).postedStep (t.channel w)

theorem State.CycleMoved.refl (s : State) : s.CycleMoved s := ⟨.refl s, fun _ => .refl _ _⟩

theorem State.CycleMoved.voice {s t : State} (h : s.OnRenderer t) (w : Voice) : t.voice w = s.voice w := by
  rw [h.1]; rfl

theorem State.CycleMoved.trans {s t u : State} (h : s.CycleMoved t) (h' : t.CycleMoved u) : s.CycleMoved u :=
  ⟨h.1.trans h'.1, fun w => (h.2 w).trans (by have := h'.2 w; rwa [State.CycleMoved.voice h.1] at this)⟩

theorem State.cycleMoved_setChannel (s : State) (v : Voice) {c : Channel}
    (h : (s.channel v).Moved (s.voice v).postedStep c) : s.CycleMoved (s.setChannel v c) := by
  refine ⟨⟨rfl, .refl _⟩, fun w => ?_⟩
  rw [State.channel_setChannel]
  split
  · subst_vars; exact h
  · exact .refl _ _

theorem State.cycleMoved_arbiter (s : State) (a : Arbiter) : s.CycleMoved { s with arbiter := a } :=
  ⟨⟨rfl, .refl _⟩, fun _ => .refl _ _⟩

theorem State.cycleMoved_bump (s : State) (k : Counter) : s.CycleMoved (s.bump k) :=
  ⟨⟨rfl, s.counters.grown_bump k⟩, fun _ => .refl _ _⟩

theorem State.cycleMoved_request (s : State) (j : Job) : s.CycleMoved (s.request j) := s.cycleMoved_arbiter _

theorem State.cycleMoved_finishJob (s : State) : s.CycleMoved s.finishJob := s.cycleMoved_arbiter _

theorem State.cycleMoved_requestFetch (s : State) (v : Voice) (m : Mark) : s.CycleMoved (s.requestFetch v m) := by
  unfold State.requestFetch
  split
  · exact s.cycleMoved_arbiter _
  · exact s.cycleMoved_request _

theorem State.cycleMoved_takePostedStep (s : State) (v : Voice) : s.CycleMoved (s.takePostedStep v) := by
  unfold State.takePostedStep
  split
  · exact s.cycleMoved_setChannel v ⟨rfl, .inr (by simp_all)⟩
  · exact .refl s

theorem State.cycleMoved_promote (s : State) (v : Voice) : s.CycleMoved (s.promote v) := by
  simp only [State.promote]
  split
  · exact s.cycleMoved_setChannel v ⟨rfl, .inl rfl⟩
  · exact s.cycleMoved_bump _
  · exact s.cycleMoved_bump _

theorem State.cycleMoved_schedule (s : State) (v : Voice) (g : Grain) : s.CycleMoved (s.schedule v g) :=
  s.cycleMoved_setChannel v ⟨rfl, .inl rfl⟩

theorem State.cycleMoved_requestPlace (s : State) (v : Voice) (g : Grain) : s.CycleMoved (s.requestPlace v g) := by
  refine .trans (s.cycleMoved_setChannel v ?_) (State.cycleMoved_request _ _)
  exact ⟨rfl, .inl rfl⟩

theorem State.cycleMoved_setPlacementPoint (s : State) (v : Voice) (p : Pos) :
    s.CycleMoved (s.setPlacementPoint v p) :=
  s.cycleMoved_setChannel v ⟨rfl, .inl rfl⟩

theorem State.cycleMoved_chooseSource (s : State) (v : Voice) : s.CycleMoved (s.chooseSource v) := by
  simp only [State.chooseSource]
  split
  · exact .refl s
  · exact .refl s
  · split
    · exact .refl s
    · split
      · split
        · exact s.cycleMoved_setChannel v ⟨rfl, .inl rfl⟩
        · refine .trans (s.cycleMoved_setChannel v ?_) (State.cycleMoved_requestFetch _ _ _)
          exact ⟨rfl, .inl rfl⟩
      · refine .trans (s.cycleMoved_setChannel v ?_) (State.cycleMoved_requestFetch _ _ _)
        exact ⟨rfl, .inl rfl⟩

theorem State.cycleMoved_advanceCycle (v : Voice) (n : Nat) (g : Grain) (s : State) :
    s.CycleMoved (s.advanceCycle v n g) := by
  induction n generalizing g s with
  | zero => exact .refl s
  | succ n ih =>
    have h1 : s.CycleMoved (((s.promote v).takePostedStep v).schedule v g) :=
      ((s.cycleMoved_promote v).trans (State.cycleMoved_takePostedStep _ v)).trans (State.cycleMoved_schedule _ v g)
    simp only [State.advanceCycle]
    split
    · exact h1
    · rename_i g' _
      generalize (((s.promote v).takePostedStep v).schedule v g) = s1 at h1 ⊢
      have h2 := h1.trans ((s1.cycleMoved_setPlacementPoint v
        (firstPosition g' ((s1.channel v).outputMark.getD 0) - BitVec.ofNat 24 Config.placementLead)).trans
          (State.cycleMoved_chooseSource _ v))
      split
      · exact (h2.trans (State.cycleMoved_bump _ _)).trans (ih _ _)
      · split
        · exact h2.trans (State.cycleMoved_requestPlace _ _ _)
        · exact h2

theorem State.cycleMoved_silentPlacement (s : State) (v : Voice) : s.CycleMoved (s.silentPlacement v) := by
  simp only [State.silentPlacement]
  refine .trans (s.cycleMoved_takePostedStep v)
    (.trans (State.cycleMoved_setChannel _ v ?_) (State.cycleMoved_chooseSource _ v))
  exact ⟨rfl, .inl rfl⟩

theorem State.cycleMoved_silentAgain (s : State) (v : Voice) (again : State → State)
    (h : ∀ s : State, s.CycleMoved (again s)) : s.CycleMoved (s.silentAgain v again) := by
  unfold State.silentAgain
  split
  · split
    · exact h s
    · exact .refl s
  · exact .refl s

theorem State.cycleMoved_reachPlacementPoint (v : Voice) (n : Nat) (s : State) :
    s.CycleMoved (s.reachPlacementPoint v n) := by
  induction n generalizing s with
  | zero => exact .refl s
  | succ n ih =>
    simp only [State.reachPlacementPoint]
    split
    · exact s.cycleMoved_requestPlace v _
    · split
      · have h := s.cycleMoved_setChannel v (c := { s.channel v with
            current := some ‹_›, next := .empty, placementPoint := none }) ⟨rfl, .inl rfl⟩
        split
        · exact (h.trans (State.cycleMoved_bump _ _)).trans (State.cycleMoved_advanceCycle _ _ _ _)
        · exact h.trans (State.cycleMoved_requestPlace _ _ _)
      · exact (s.cycleMoved_silentPlacement v).trans (State.cycleMoved_silentAgain _ v _ ih)
      · exact (s.cycleMoved_silentPlacement v).trans (State.cycleMoved_silentAgain _ v _ ih)

theorem State.cycleMoved_placementPointDue (s : State) (v : Voice) : s.CycleMoved (s.placementPointDue v) := by
  unfold State.placementPointDue
  split
  · split
    · exact State.cycleMoved_reachPlacementPoint _ _ _
    · exact .refl s
  · exact .refl s

theorem State.cycleMoved_advanceIfRunning (s : State) (v : Voice) (g : Grain) :
    s.CycleMoved (s.advanceIfRunning v g) := by
  unfold State.advanceIfRunning
  split
  · exact State.cycleMoved_advanceCycle _ _ _ _
  · exact .refl s

theorem State.cycleMoved_dropRunning (s : State) (v : Voice) : s.CycleMoved (s.dropRunning v) := by
  unfold State.dropRunning
  split
  · split
    · exact (s.cycleMoved_arbiter _).trans (State.cycleMoved_bump _ _)
    · exact .refl s
  · exact .refl s

theorem State.cycleMoved_dropWaiting (s : State) (v : Voice) : s.CycleMoved (s.dropWaiting v) := by
  simp only [State.dropWaiting]
  split
  · have h := (s.cycleMoved_arbiter { s.arbiter with list := s.arbiter.list.erase ‹_› }).trans
      (State.cycleMoved_bump _ .drop)
    split
    · exact h.trans (State.cycleMoved_advanceIfRunning _ _ _)
    · exact h
  · exact .refl s

theorem State.cycleMoved_dropGrain (s : State) (v : Voice) : s.CycleMoved (s.dropGrain v) :=
  (s.cycleMoved_dropRunning v).trans (State.cycleMoved_dropWaiting _ v)

theorem Channel.moved_dropFetch (posted : Option Nat) (c : Channel) (pos : Pos16) :
    c.Moved posted (c.dropFetch pos) := by
  unfold Channel.dropFetch
  split
  · split
    · exact ⟨rfl, .inl rfl⟩
    · exact .refl _ _
  · exact .refl _ _

theorem Channel.moved_takeGrain (posted : Option Nat) (c : Channel) (g : Grain) : c.Moved posted (c.takeGrain g) := by
  unfold Channel.takeGrain
  split
  · split
    · exact ⟨rfl, .inl rfl⟩
    · exact .refl _ _
  · exact .refl _ _

theorem State.cycleMoved_emptyServed (s : State) (v : Voice) (jobs : List Job) (m : Mark) :
    s.CycleMoved (s.emptyServed v jobs m) := by
  have step : ∀ (w : Voice) (s : State), s.CycleMoved
      (if w = v ∨ jobs.any (Job.isFetchFor w) then s.setChannel w ((s.channel w).dropFetch m.pos) else s) := by
    intro w s
    split
    · exact s.cycleMoved_setChannel w (Channel.moved_dropFetch _ _ _)
    · exact .refl s
  simp only [State.emptyServed, State.forVoices]
  exact (((step _ _).trans (step _ _)).trans (step _ _)).trans (step _ _)

theorem State.cycleMoved_withdrawOverwritten (s : State) (v : Voice) : s.CycleMoved (s.withdrawOverwritten v) := by
  simp only [State.withdrawOverwritten]
  split
  · split
    · exact (s.cycleMoved_arbiter _).trans (State.cycleMoved_emptyServed _ _ _ _)
    · exact .refl s
  · exact .refl s

theorem State.cycleMoved_fetchDone (s : State) (o : Voice) (p : Option Voice) (m : Mark) :
    s.CycleMoved (s.fetchDone o p m) := by
  have h := s.cycleMoved_setChannel o (Channel.moved_takeGrain (s.voice o).postedStep (s.channel o) (readGrain s.ring m))
  simp only [State.fetchDone]
  split
  · exact h.trans (State.cycleMoved_setChannel _ _ (Channel.moved_takeGrain _ _ _))
  · exact h

end Sys2Proof.Machine
end

