-- ==== Sys2Proof/Laws/Exec.lean ====
section
/-! SUPPORT. Laws/Exec.lean: a property that every part of a command keeps is one that every command and every step
keeps. Packaged once, so that a proof about all commands is one goal for each part. -/

namespace Sys2Proof.Machine

/-! ### The owed steps -/

theorem State.settle_of_nil {s : State} (h : s.owed = []) : s.settle = s := by
  unfold State.settle
  rw [h]
  rfl

/-- A command that settles first, in a state that is ready for it. -/
theorem whenReleased_settle {s : State} (h : s.ready) (f : State → State) :
    whenReleased (fun s => f s.settle) s = .next (f s) := by
  simp [whenReleased, h.1, State.settle_of_nil h.2]

/-- A step that has come about, taken by its command. -/
theorem State.takeOwed_of_mem {s : State} {o : Owed} (h : o ∈ s.owed) :
    s.takeOwed o = State.perform o { s with owed := s.owed.erase o } := by
  simp [State.takeOwed, h]

theorem State.takeOwed_of_not_mem {s : State} {o : Owed} (h : o ∉ s.owed) : s.takeOwed o = s := by
  simp [State.takeOwed, h]

theorem State.OnRenderer.owed {s t : State} (h : s.OnRenderer t) : t.owed = s.owed := by rw [h.1]

theorem State.forVoices_owed {f : Voice → State → State} (h : ∀ v s, (f v s).owed = s.owed) (s : State) :
    (s.forVoices f).owed = s.owed := by
  simp only [State.forVoices, h]

theorem State.abandonAnalysis_owed (s : State) : s.abandonAnalysis.owed = s.owed := by
  unfold State.abandonAnalysis
  split <;> rfl

theorem State.sceneTakesEffect_owed (s : State) (sc : Scene) : (s.sceneTakesEffect sc).owed = s.owed := by
  unfold State.sceneTakesEffect
  rw [State.forVoices_owed, State.abandonAnalysis_owed]
  intro v s
  unfold State.sceneVoice
  split
  · split <;> rfl
  · rfl

theorem State.switchScene_owed (s : State) (p : Pos) (m : SceneMsg) : (s.switchScene p m).owed = s.owed := by
  unfold State.switchScene
  split
  · exact State.sceneTakesEffect_owed _ _
  · rfl
  · split
    · exact State.sceneTakesEffect_owed _ _
    · rfl

theorem State.acceptFrame_owed (s : State) (a : Accepted) : (s.acceptFrame a).owed = s.owed := by
  cases a with
  | claim m =>
    show (s.acceptClaim m).owed = _
    unfold State.acceptClaim
    repeat' first | rfl | split
  | scene p m =>
    show (s.acceptScene p m).owed = _
    unfold State.acceptScene
    split
    · rw [State.switchScene_owed]
      split <;> rfl
    · rfl
  | bypassOn =>
    show s.acceptBypassOn.owed = _
    unfold State.acceptBypassOn
    split
    · rfl
    · simp only [State.bypassOn, State.placeRecord_owed, State.keepRecord_owed]
      rw [State.forVoices_owed]
      · rfl
      · intro v s
        split <;> rfl
  | bypassOff => rfl
  | query c => rfl

/-- A step that is taken owes no other and takes none with it. -/
theorem State.perform_owed (s : State) (o : Owed) : (State.perform o s).owed = s.owed := by
  cases o with
  | leaveWarming =>
    show s.leaveWarming.owed = _
    unfold State.leaveWarming
    repeat' first | rfl | split
  | analysisTick =>
    show s.takeTick.owed = _
    unfold State.takeTick
    split <;> rfl
  | windowOverwrite =>
    show s.overwriteWindow.owed = _
    unfold State.overwriteWindow
    split
    · split
      · exact State.abandonAnalysis_owed s
      · rfl
    · rfl
  | sceneDuePoint =>
    show s.takeDueScene.owed = _
    unfold State.takeDueScene
    split
    · split
      · split
        · exact State.sceneTakesEffect_owed _ _
        · rfl
      · rfl
    · rfl
  | fetchWithdrawal v => exact (s.cycleMoved_withdrawOverwritten v).1.owed
  | placementPointDue v => exact (s.cycleMoved_placementPointDue v).1.owed
  | grainDrop v => exact (s.cycleMoved_dropGrain v).1.owed
  | enteringRampFull v =>
    show (s.rampFull v).owed = _
    simp only [State.rampFull]
    repeat' first | rfl | split
  | cycleStop v =>
    show (s.stopCycle v).owed = _
    simp only [State.stopCycle]
    repeat' first | rfl | split
  | accept a => exact s.acceptFrame_owed a

/-- What settling does, one step at a time (log 1). -/
theorem State.settle_cons {s : State} {o : Owed} {rest : List Owed} (h : s.owed = o :: rest) :
    s.settle = (State.perform o { s with owed := rest }).settle := by
  unfold State.settle
  rw [State.perform_owed, h]
  rfl

theorem State.settle_owed (s : State) : s.settle.owed = [] := by
  generalize h : s.owed = l
  induction l generalizing s with
  | nil => rw [State.settle_of_nil h, h]
  | cons o rest ih =>
    rw [State.settle_cons h]
    exact ih _ (State.perform_owed _ _)

/-! ### Properties that every command keeps -/

/-- What must be shown of a property for the commands' parts, the two edges of RESET_N and the sample arrival apart. A
step that is owed is taken off the list before it is performed; the parts that other blocks wait for come when nothing
is owed. -/
structure Kept (P : State → Prop) : Prop where
  perform : ∀ s o, o ∈ s.owed → P s → P (State.perform o { s with owed := s.owed.erase o })
  accept : ∀ s a, P s → P (s.acceptFrame a)
  sync : ∀ s, s.owed = [] → P s → P s.takeFrameSync
  loss : ∀ s, s.owed = [] → P s → P s.loseAudio
  segment : ∀ s, s.owed = [] → P s → P s.completeSegment
  expire : ∀ s, s.owed = [] → P s → P s.expireEntries
  fetch : ∀ s, s.owed = [] → P s → P s.completeFetch
  place : ∀ s, s.owed = [] → P s → P s.completePlace
  frameStart : ∀ s, P s → P s.takeFrameStart
  startBit : ∀ s, P s → P s.takeStartBit
  char : ∀ s c, P s → P (s.takeChar c)
  returnToMark : ∀ s, P s → P s.takeReturnToMark
  boundary : ∀ s, P s → P s.takeBoundary
  hush : ∀ s, P s → P s.takeHush
  idle : ∀ s i, (i ≤ 74 ∨ i = s.line.idle) → P s → P (s.setLine { s.line with idle := i })
  send : ∀ s, P s → P s.beginSend
  echo : ∀ s h, P s → P (s.takeEcho h)
  hear : ∀ s e, e.length ≤ 9 → P s → P (s.setLine { s.line with echo := e })
  bits : ∀ s b, b.length ≤ 8 → P s → P (s.setLine { s.line with rx := .character b })
  space : ∀ s, P s → P (s.setLine { s.line with rx := .space })
  spaceRun : ∀ s n, (n ≤ 40 ∨ n = s.line.spaceRun) → P s → P (s.setLine { s.line with spaceRun := n })

variable {P : State → Prop}

theorem Kept.settle (k : Kept P) {s : State} (h : P s) : P s.settle := by
  generalize hl : s.owed = l
  induction l generalizing s with
  | nil => rwa [State.settle_of_nil hl]
  | cons o rest ih =>
    rw [State.settle_cons hl]
    refine ih ?_ (State.perform_owed _ _)
    have := k.perform s o (by rw [hl]; exact .head _) h
    rwa [hl, List.erase_cons_head] at this

theorem Kept.takeOwed (k : Kept P) {s : State} (o : Owed) (h : P s) : P (s.takeOwed o) := by
  unfold State.takeOwed
  split
  · exact k.perform _ _ ‹_› h
  · exact h

theorem Kept.takeAccepted (k : Kept P) {s : State} (a : Accepted) (h : P s) : P (s.takeAccepted a) := by
  unfold State.takeAccepted
  split
  · exact k.takeOwed _ h
  · exact k.accept _ _ (k.settle h)

theorem Kept.takeOwedTick (k : Kept P) {s : State} (h : P s) : P s.takeOwedTick := by
  unfold State.takeOwedTick
  split
  · exact k.takeOwed _ (k.takeOwed _ h)
  · exact h

theorem Kept.takeLoss (k : Kept P) {s : State} (ho : s.owed = []) (h : P s) : P s.takeLoss := by
  unfold State.takeLoss
  split
  · exact k.loss _ ho h
  · exact h

theorem Kept.takeBreak (k : Kept P) {s : State} (h : P s) : P s.takeBreak := by
  unfold State.takeBreak
  split
  · exact h
  · exact k.hush _ h

theorem Kept.takeSendStart (k : Kept P) {s : State} (h : P s) : P s.takeSendStart := by
  simp only [State.takeSendStart]
  split
  · exact h
  · split
    · refine k.send _ (k.idle _ _ (.inl (min_le_left _ _)) ?_)
      unfold State.passBoundary
      split
      · exact h
      · exact k.settle (k.boundary _ h)
    · exact h

theorem whenReleased_keeps {s t : State} {f : State → State} (hf : ∀ s, P s → P (f s)) (h : P s)
    (e : whenReleased f s = .next t) : P t := by
  simp only [whenReleased, Host.Outcome.next.injEq] at e
  subst e
  split
  · exact hf s h
  · exact h

/-- Every command but the edges of RESET_N and the sample arrival keeps the property. -/
theorem Kept.exec (k : Kept P) (c : Instr) {s t : State} (h : P s) (e : exec c s = .next t)
    (assert : c = .resetAssert → P t) (release : ∀ p m, c = .resetRelease p m → P t)
    (sample : ∀ x, c = .sampleArrival x → P t) : P t := by
  cases c with
  | resetAssert => exact assert rfl
  | resetRelease p m => exact release p m rfl
  | sampleArrival x => exact sample x rfl
  | frameSync => exact whenReleased_keeps (fun s h => k.sync _ s.settle_owed (k.settle h)) h e
  | lossOfAudio => exact whenReleased_keeps (fun s h => k.takeLoss s.settle_owed (k.settle h)) h e
  | leaveWarming => exact whenReleased_keeps (fun s h => k.takeOwed _ h) h e
  | analysisTick => exact whenReleased_keeps (fun s h => k.takeOwedTick h) h e
  | windowOverwrite => exact whenReleased_keeps (fun s h => k.takeOwed _ h) h e
  | segmentCompletion => exact whenReleased_keeps (fun s h => k.segment _ s.settle_owed (k.settle h)) h e
  | peerEntryExpiry => exact whenReleased_keeps (fun s h => k.expire _ s.settle_owed (k.settle h)) h e
  | sceneDuePoint => exact whenReleased_keeps (fun s h => k.takeOwed _ h) h e
  | placementPointDue v => exact whenReleased_keeps (fun s h => k.takeOwed _ h) h e
  | fetchCompletion => exact whenReleased_keeps (fun s h => k.fetch _ s.settle_owed (k.settle h)) h e
  | fetchWithdrawal v => exact whenReleased_keeps (fun s h => k.takeOwed _ h) h e
  | placeCompletion => exact whenReleased_keeps (fun s h => k.place _ s.settle_owed (k.settle h)) h e
  | grainDrop v => exact whenReleased_keeps (fun s h => k.takeOwed _ h) h e
  | enteringRampFull v => exact whenReleased_keeps (fun s h => k.takeOwed _ h) h e
  | cycleStop v => exact whenReleased_keeps (fun s h => k.takeOwed _ h) h e
  | frameStart => exact whenReleased_keeps (fun s h => k.frameStart _ (k.settle h)) h e
  | characterReceived c => exact whenReleased_keeps (fun s h => k.char _ _ (k.settle h)) h e
  | lineReturnToMark => exact whenReleased_keeps (fun s h => k.returnToMark _ (k.settle h)) h e
  | frameBoundary => exact whenReleased_keeps (fun s h => k.boundary _ (k.settle h)) h e
  | claim m => exact whenReleased_keeps (fun s h => k.takeAccepted _ h) h e
  | scene p m => exact whenReleased_keeps (fun s h => k.takeAccepted _ h) h e
  | bypassOn => exact whenReleased_keeps (fun s h => k.takeAccepted _ h) h e
  | bypassOff => exact whenReleased_keeps (fun s h => k.takeAccepted _ h) h e
  | query b => exact whenReleased_keeps (fun s h => k.takeAccepted _ h) h e
  | hush => exact whenReleased_keeps (fun s h => k.takeBreak (k.settle h)) h e
  | sendStart => exact whenReleased_keeps (fun s h => k.takeSendStart (k.settle h)) h e
  | echoCheck x => exact whenReleased_keeps (fun s h => k.echo _ _ (k.settle h)) h e
  | startBit => exact whenReleased_keeps (fun s h => k.startBit _ (k.settle h)) h e

theorem Kept.sampleArrival (k : Kept P) {x : Sample} {s t : State}
    (arrival : ∀ s x, s.owed = [] → P s → P { ((State.captureSample x s).trimMarks).positionDue with
      owed := ((State.captureSample x s).trimMarks).positionDue.owedAtArrival })
    (h : P s) (e : Machine.exec (.sampleArrival x) s = .next t) : P t := by
  refine whenReleased_keeps (f := fun s => s.settle.takeSample x) (fun s h => ?_) h e
  unfold State.takeSample
  split
  · exact k.settle h
  · exact arrival _ _ s.settle_owed (k.settle h)

/-! ### Properties that a bit time keeps -/

theorem Kept.timer (k : Kept P) (tick : ∀ s n, n < 24000 → P s → P { s with audio := { s.audio with lossTimer := some n } })
    {s : State} (ho : s.owed = []) (h : P s) : P s.passTimer := by
  simp only [State.passTimer]
  split
  · exact h
  · split
    · exact k.takeLoss ho h
    · exact tick _ _ (by simp only [Config.lossLimit] at *; omega) h

theorem Kept.passIdle (k : Kept P) {s : State} (h : P s) : P s.passIdle := by
  have gap : ∀ s, P s → P s.gapTest := fun s h => by
    unfold State.gapTest
    split
    · split
      · exact k.send _ h
      · exact h
    · exact h
  simp only [State.passIdle]
  refine gap _ ?_
  have h1 : satSucc Config.maxIdle s.line.idle ≤ 74 ∨ satSucc Config.maxIdle s.line.idle = s.line.idle := by
    unfold satSucc Config.maxIdle
    split <;> omega
  split
  · exact k.settle (k.boundary _ (k.idle _ _ h1 h))
  · exact k.idle _ _ h1 h

theorem Kept.hearBit (k : Kept P) {s : State} (b : Bool) (h : P s) : P (s.hearBit b) := by
  unfold State.hearBit
  split
  · split
    · exact k.hear _ _ (by simp; omega) h
    · exact k.echo _ _ h
  · exact h

theorem Kept.receiveBit (k : Kept P) {s : State} (b : Bool) (h : P s) : P (s.receiveBit b) := by
  unfold State.receiveBit
  split
  · exact k.passIdle h
  · unfold State.findStartBit
    split
    · exact k.frameStart _ h
    · exact k.startBit _ h
  · split
    · exact k.bits _ _ (by simp; omega) h
    · split
      · exact k.char _ _ h
      · exact k.space _ h
  · exact k.passIdle (k.returnToMark _ h)
  · exact h

theorem Kept.lineBit (k : Kept P) {s : State} (b : Bool) (h : P s) : P (s.lineBit b) := by
  have h1 := k.hearBit b h
  simp only [State.lineBit, State.breakTest]
  have h2 : (if b then 0 else satSucc Config.breakRun (s.hearBit b).line.spaceRun) ≤ 40 ∨
      (if b then 0 else satSucc Config.breakRun (s.hearBit b).line.spaceRun) = (s.hearBit b).line.spaceRun := by
    unfold satSucc Config.breakRun
    split
    · omega
    · split <;> omega
  have h3 := k.receiveBit b (k.spaceRun _ _ h2 h1)
  split
  · exact k.takeBreak h3
  · exact h3

/-- The parts that the edges of ABCLK come to. -/
theorem Kept.passEdges (k : Kept P)
    (arrival : ∀ s x, s.owed = [] → P s → P { ((State.captureSample x s).trimMarks).positionDue with
      owed := ((State.captureSample x s).trimMarks).positionDue.owedAtArrival })
    (fall : ∀ s b, P s → P { s with audio := s.audio.passFall b })
    (bit : ∀ s n b, n < 23 → P s → P { s with audio := s.audio.takeBit n b })
    (l : List AudioEdge) {s : State} (ho : s.owed = []) (h : P s) :
    P (Machine.passEdges l s) ∧ (Machine.passEdges l s).owed = [] := by
  induction l generalizing s with
  | nil => exact ⟨h, ho⟩
  | cons e rest ih =>
    refine ih (State.settle_owed _) (k.settle ?_)
    cases e with
    | fall b =>
      simp only [State.takeEdge, State.takeFall]
      split
      · exact k.sync _ ho h
      · exact fall _ _ h
    | rise b =>
      simp only [State.takeEdge, State.takeRise]
      split
      · exact h
      · split
        · exact bit _ _ _ (by simp only [Config.sampleBits] at *; omega) h
        · split
          · unfold State.takeSample
            split
            · exact h
            · exact arrival _ _ ho h
          · exact h

/-- What must be shown besides, for a property of every step. -/
structure KeptByStep (P : State → Prop) : Prop extends Kept P where
  pending : ∀ s p, P s → P { s with pending := p }
  assert : ∀ s, P s → P { State.released s.straps true s.audioIn s.lineIn s.pending with resetN := false, npt := s.npt }
  release : ∀ s pins m, P s → P (State.released pins m s.audioIn s.lineIn s.pending)
  audioIn : ∀ s l, P s → P { s with audioIn := l }
  lineIn : ∀ s l, P s → P { s with lineIn := l }
  fall : ∀ s b, P s → P { s with audio := s.audio.passFall b }
  bit : ∀ s n b, n < 23 → P s → P { s with audio := s.audio.takeBit n b }
  arrival : ∀ s x, s.owed = [] → P s → P { ((State.captureSample x s).trimMarks).positionDue with
    owed := ((State.captureSample x s).trimMarks).positionDue.owedAtArrival }
  tick : ∀ s n, n < 24000 → P s → P { s with audio := { s.audio with lossTimer := some n } }

/-- Every command keeps the property. -/
theorem KeptByStep.execKeeps (k : KeptByStep P) (c : Instr) {s t : State} (h : P s) (e : exec c s = .next t) : P t := by
  refine k.toKept.exec c h e ?_ ?_ ?_
  · rintro rfl
    simp only [Machine.exec, execResetAssert, Host.Outcome.next.injEq] at e
    exact e ▸ k.assert s h
  · rintro p m rfl
    simp only [Machine.exec, execResetRelease, Host.Outcome.next.injEq] at e
    exact e ▸ k.release s p m h
  · rintro x rfl
    exact k.toKept.sampleArrival k.arrival h e

/-- Every step keeps the property. -/
theorem KeptByStep.stepKeeps (k : KeptByStep P) {s t : State} (h : P s) (e : step s = .next t) : P t := by
  unfold step at e
  split at e
  · simp only [Host.Outcome.next.injEq] at e
    subst e
    unfold State.passBitTime
    split
    · have h0 := k.toKept.passEdges k.arrival k.fall k.bit (s.settle.audioIn.headD [])
        (s := { s.settle with audioIn := s.settle.audioIn.tail }) s.settle_owed (k.audioIn _ _ (k.settle h))
      have h1 := k.timer k.tick h0.2 h0.1
      unfold State.passLine
      split
      · exact k.lineBit _ (k.lineIn _ _ h1)
      · exact h1
    · exact h
  · exact k.execKeeps _ (k.pending _ _ h) e

end Sys2Proof.Machine
end

