-- ==== Sys2Proof/Laws/Fixed.lean ====
section
/-! SUPPORT. Laws/Fixed.lean: what no part of a command touches: the latch, the period table, the stage clock, the queue
of commands, the coming audio edges and line levels and the level of RESET_N stay, the clash flag is never cleared, and
counters only rise. -/

namespace Sys2Proof.Machine

/-- The parts of t that no command but a reset and a sample arrival may touch stand as in s. -/
structure State.Fixed (s t : State) : Prop where
  resetN : t.resetN = s.resetN
  straps : t.straps = s.straps
  npt : t.npt = s.npt
  clock : t.clock = s.clock
  pending : t.pending = s.pending
  audioIn : t.audioIn = s.audioIn
  lineIn : t.lineIn = s.lineIn
  clash : s.line.clash = true → t.line.clash = true

theorem State.Fixed.refl (s : State) : s.Fixed s := ⟨rfl, rfl, rfl, rfl, rfl, rfl, rfl, id⟩

theorem State.Fixed.trans {s t u : State} (h : s.Fixed t) (h' : t.Fixed u) : s.Fixed u :=
  ⟨h'.resetN.trans h.resetN, h'.straps.trans h.straps, h'.npt.trans h.npt, h'.clock.trans h.clock,
    h'.pending.trans h.pending, h'.audioIn.trans h.audioIn, h'.lineIn.trans h.lineIn, fun e => h'.clash (h.clash e)⟩

/-- Fixed, with no counter fallen. -/
def State.Grown (s t : State) : Prop := s.Fixed t ∧ s.counters.Grown t.counters

theorem State.Grown.refl (s : State) : s.Grown s := ⟨.refl s, .refl _⟩

theorem State.Grown.trans {s t u : State} (h : s.Grown t) (h' : t.Grown u) : s.Grown u :=
  ⟨h.1.trans h'.1, h.2.trans h'.2⟩

/-- Changes elsewhere. -/
theorem State.grown_of (s t : State) (h : s.Fixed t) (h' : t.counters = s.counters) : s.Grown t :=
  ⟨h, h' ▸ .refl _⟩

theorem State.OnRenderer.grown {s t : State} (h : s.OnRenderer t) : s.Grown t :=
  ⟨by rw [h.1]; exact ⟨rfl, rfl, rfl, rfl, rfl, rfl, rfl, id⟩, h.2⟩

theorem State.CycleMoved.grown {s t : State} (h : s.CycleMoved t) : s.Grown t := h.1.grown

theorem State.grown_bump (s : State) (k : Counter) : s.Grown (s.bump k) :=
  ⟨⟨rfl, rfl, rfl, rfl, rfl, rfl, rfl, id⟩, s.counters.grown_bump k⟩

theorem State.grown_bumpTimes (s : State) (k : Counter) (n : Nat) : s.Grown (State.bumpTimes k n s) := by
  refine ⟨?_, State.bumpTimes_grown k n s⟩
  rw [State.bumpTimes_eq]
  exact ⟨rfl, rfl, rfl, rfl, rfl, rfl, rfl, id⟩

theorem State.grown_setLine (s : State) (l : LineControl) (h : s.line.clash = true → l.clash = true) :
    s.Grown (s.setLine l) :=
  ⟨⟨rfl, rfl, rfl, rfl, rfl, rfl, rfl, h⟩, .refl _⟩

/-! ### Operations of each block -/

@[simp] theorem LineControl.wake_clash (l : LineControl) : l.wake.clash = l.clash := by
  unfold LineControl.wake; split <;> rfl

@[simp] theorem LineControl.placeClaim_clash (l : LineControl) (r : ClaimRecord) : (l.placeClaim r).clash = l.clash := by
  simp [LineControl.placeClaim]

@[simp] theorem LineControl.placeReport_clash (l : LineControl) (c : Bool) : (l.placeReport c).clash = l.clash := by
  simp [LineControl.placeReport]

@[simp] theorem LineControl.settleTransmitter_clash (l : LineControl) : l.settleTransmitter.clash = l.clash := rfl

@[simp] theorem LineControl.emptySlot_clash (l : LineControl) (f : FrameInHand) : (l.emptySlot f).clash = l.clash := by
  unfold LineControl.emptySlot
  split
  · rfl
  · split <;> rfl

theorem State.grown_placeRecord (s : State) : s.Grown s.placeRecord :=
  ⟨⟨rfl, rfl, rfl, rfl, rfl, rfl, rfl, fun h => by simpa using h⟩, .refl _⟩

theorem State.grown_clearTargets (s : State) : s.Grown s.clearTargets := ⟨⟨rfl, rfl, rfl, rfl, rfl, rfl, rfl, id⟩, .refl _⟩

theorem State.grown_keepRecord (s : State) (r : ClaimRecord) : s.Grown (s.keepRecord r) :=
  ⟨⟨rfl, rfl, rfl, rfl, rfl, rfl, rfl, id⟩, .refl _⟩

theorem State.grown_setChannel (s : State) (v : Voice) (c : Channel) : s.Grown (s.setChannel v c) :=
  ⟨⟨rfl, rfl, rfl, rfl, rfl, rfl, rfl, id⟩, .refl _⟩

theorem State.grown_setVoice (s : State) (v : Voice) (a : VoiceAlloc) : s.Grown (s.setVoice v a) :=
  ⟨⟨rfl, rfl, rfl, rfl, rfl, rfl, rfl, id⟩, .refl _⟩

theorem State.grown_abandonAnalysis (s : State) : s.Grown s.abandonAnalysis := by
  unfold State.abandonAnalysis
  split
  · exact ⟨⟨rfl, rfl, rfl, rfl, rfl, rfl, rfl, id⟩, .refl _⟩
  · exact .refl s

theorem State.grown_withdrawClaims (s : State) : s.Grown s.withdrawClaims :=
  ((s.grown_clearTargets).trans (State.grown_keepRecord _ _)).trans (State.grown_placeRecord _)

theorem State.grown_forVoices (s : State) {f : Voice → State → State} (h : ∀ v s, State.Grown s (f v s)) :
    s.Grown (s.forVoices f) :=
  (((h _ _).trans (h _ _)).trans (h _ _)).trans (h _ _)

theorem State.grown_sceneTakesEffect (s : State) (sc : Scene) : s.Grown (s.sceneTakesEffect sc) := by
  unfold State.sceneTakesEffect
  have h : s.Grown { s with scenes := { s.scenes with active := sc, pending := none } } :=
    ⟨⟨rfl, rfl, rfl, rfl, rfl, rfl, rfl, id⟩, .refl _⟩
  refine (h.trans (State.grown_abandonAnalysis _)).trans (State.grown_forVoices _ fun v s => ?_)
  unfold State.sceneVoice
  split
  · split
    · exact (s.grown_setVoice _ _).trans (State.grown_setChannel _ _ _)
    · exact s.grown_setChannel _ _
  · exact .refl s

theorem State.grown_takeDueScene (s : State) : s.Grown s.takeDueScene := by
  unfold State.takeDueScene
  split
  · split
    · split
      · exact s.grown_sceneTakesEffect _
      · exact .refl s
    · exact .refl s
  · exact .refl s

theorem State.grown_takeRestScene (s : State) : s.Grown s.takeRestScene := by
  unfold State.takeRestScene
  split
  · split
    · exact s.grown_sceneTakesEffect _
    · exact .refl s
  · exact .refl s

theorem State.grown_switchScene (s : State) (p : Pos) (m : SceneMsg) : s.Grown (s.switchScene p m) := by
  unfold State.switchScene
  split
  · exact State.grown_sceneTakesEffect _ _
  · exact ⟨⟨rfl, rfl, rfl, rfl, rfl, rfl, rfl, id⟩, .refl _⟩
  · split
    · exact State.grown_sceneTakesEffect _ _
    · exact ⟨⟨rfl, rfl, rfl, rfl, rfl, rfl, rfl, id⟩, .refl _⟩

theorem State.grown_acceptScene (s : State) (p : Pos) (m : SceneMsg) : s.Grown (s.acceptScene p m) := by
  unfold State.acceptScene
  by_cases hw : m.wellFormed = true
  · by_cases hc : sceneClamped m = true
    · rw [if_pos hw, if_pos hc]
      exact (s.grown_bump _).trans (State.grown_switchScene _ _ _)
    · rw [if_pos hw, if_neg hc]
      exact s.grown_switchScene _ _
  · rw [if_neg hw]
    exact s.grown_bump _

theorem State.grown_acceptClaim (s : State) (m : ClaimMsg) : s.Grown (s.acceptClaim m) := by
  unfold State.acceptClaim
  split
  · exact s.grown_bump _
  · split
    · exact .refl s
    · split
      · exact ⟨⟨rfl, rfl, rfl, rfl, rfl, rfl, rfl, id⟩, .refl _⟩
      · exact s.grown_bump _

theorem State.grown_postNoTarget (s : State) (v : Voice) : s.Grown (s.postNoTarget v) := s.grown_setChannel _ _

theorem State.grown_bypassOn (s : State) : s.Grown s.bypassOn := by
  unfold State.bypassOn
  have h : s.Grown { s with scenes := { s.scenes with bypass := true } } := ⟨⟨rfl, rfl, rfl, rfl, rfl, rfl, rfl, id⟩, .refl _⟩
  refine (((h.trans (State.grown_clearTargets _)).trans (State.grown_forVoices _ fun v s => ?_)).trans
    (State.grown_keepRecord _ _)).trans (State.grown_placeRecord _)
  split
  · exact s.grown_postNoTarget v
  · exact .refl s

theorem State.grown_acceptFrame (s : State) (a : Accepted) : s.Grown (s.acceptFrame a) := by
  cases a with
  | claim m => exact s.grown_acceptClaim m
  | scene p m => exact s.grown_acceptScene p m
  | bypassOn =>
    simp only [State.acceptFrame, State.acceptBypassOn]
    split
    · exact .refl s
    · exact s.grown_bypassOn
  | bypassOff => exact ⟨⟨rfl, rfl, rfl, rfl, rfl, rfl, rfl, id⟩, .refl _⟩
  | query c => exact s.grown_setLine _ (by simp)

theorem State.grown_takeTick (s : State) : s.Grown s.takeTick := by
  unfold State.takeTick
  split
  · exact .refl s
  · exact .refl s
  · exact ⟨⟨rfl, rfl, rfl, rfl, rfl, rfl, rfl, id⟩, .refl _⟩
  · exact s.grown_bump _

theorem State.grown_leaveWarming (s : State) : s.Grown s.leaveWarming := by
  unfold State.leaveWarming
  split
  · split
    · exact ⟨⟨rfl, rfl, rfl, rfl, rfl, rfl, rfl, id⟩, .refl _⟩
    · exact .refl s
  · exact .refl s

theorem State.grown_overwriteWindow (s : State) : s.Grown s.overwriteWindow := by
  unfold State.overwriteWindow
  split
  · split
    · exact s.grown_abandonAnalysis.trans (State.grown_bump _ _)
    · exact .refl s
  · exact .refl s

theorem State.grown_rampFull (s : State) (v : Voice) : s.Grown (s.rampFull v) := by
  simp only [State.rampFull]
  split
  · split
    · exact s.grown_setChannel _ _
    · exact .refl s
  · exact .refl s

theorem State.grown_stopCycle (s : State) (v : Voice) : s.Grown (s.stopCycle v) := by
  simp only [State.stopCycle]
  split
  · split
    · exact ⟨⟨rfl, rfl, rfl, rfl, rfl, rfl, rfl, id⟩, .refl _⟩
    · exact .refl s
  · exact .refl s

/-- A step that has come about keeps the fixed parts. -/
theorem State.grown_perform (s : State) (o : Owed) : s.Grown (State.perform o s) := by
  cases o with
  | leaveWarming => exact s.grown_leaveWarming
  | analysisTick => exact s.grown_takeTick
  | windowOverwrite => exact s.grown_overwriteWindow
  | sceneDuePoint => exact s.grown_takeDueScene
  | fetchWithdrawal v => exact (s.cycleMoved_withdrawOverwritten v).grown
  | placementPointDue v => exact (s.cycleMoved_placementPointDue v).grown
  | grainDrop v => exact (s.cycleMoved_dropGrain v).grown
  | enteringRampFull v => exact s.grown_rampFull v
  | cycleStop v => exact s.grown_stopCycle v
  | accept a => exact s.grown_acceptFrame a

theorem State.grown_startCycle (s : State) (v : Voice) (b : Bool) : s.Grown (s.startCycle v b) := by
  simp only [State.startCycle]
  split
  · exact (s.grown_setChannel _ _).trans (State.cycleMoved_requestFetch _ _ _).grown
  · exact s.grown_setChannel _ _

theorem State.grown_postTarget (s : State) (v : Voice) (b : Bool) : s.Grown (s.postTarget v b) := by
  simp only [State.postTarget]
  split
  · exact .refl s
  · exact s.grown_startCycle _ _
  · exact .refl s
  · exact s.grown_setChannel _ _
  · exact s.grown_setChannel _ _
  · split
    · exact s.grown_setChannel _ _
    · exact s.grown_startCycle _ _

theorem State.grown_postVoice (s : State) (h : Option (Nat × Nat)) (b : Quad VoiceAlloc) (v : Voice) :
    s.Grown (s.postVoice h b v) := by
  unfold State.postVoice
  split
  · split
    · simp only [State.postVoiceTarget]
      split
      · exact (s.grown_setVoice _ _).trans (State.grown_postTarget _ _ _)
      · exact (s.grown_setVoice _ _).trans (State.grown_postTarget _ _ _)
    · exact (s.grown_setVoice _ _).trans (State.grown_postNoTarget _ _)
  · exact .refl s

theorem State.grown_expireEntries (s : State) : s.Grown s.expireEntries := by
  unfold State.expireEntries
  have h : s.Grown { s with map := s.map.filter fun e => !e.expired } := ⟨⟨rfl, rfl, rfl, rfl, rfl, rfl, rfl, id⟩, .refl _⟩
  exact h.trans (State.grown_bumpTimes _ _ _)

theorem State.grown_takeDecision (s : State) (r : Reason) : s.Grown (s.takeDecision r) := by
  simp only [State.takeDecision]
  have h1 : s.Grown { s with follower := followerStep r s.follower } := ⟨⟨rfl, rfl, rfl, rfl, rfl, rfl, rfl, id⟩, .refl _⟩
  have h2 : ∀ s : State, s.Grown s.updateMap := fun s => by
    unfold State.updateMap
    have h : s.Grown { s with map := drainAndAge s.claimQueue s.map, claimQueue := [] } :=
      ⟨⟨rfl, rfl, rfl, rfl, rfl, rfl, rfl, id⟩, .refl _⟩
    exact h.trans (State.grown_expireEntries _)
  have h3 : ∀ s : State, s.Grown s.countDecision := fun s => ⟨⟨rfl, rfl, rfl, rfl, rfl, rfl, rfl, id⟩, .refl _⟩
  have h4 : ∀ s : State, s.Grown s.allocate := fun s => by
    simp only [State.allocate]
    split
    · refine .trans ?_ (State.grown_bumpTimes _ _ _)
      exact ⟨⟨rfl, rfl, rfl, rfl, rfl, rfl, rfl, id⟩, .refl _⟩
    · exact ⟨⟨rfl, rfl, rfl, rfl, rfl, rfl, rfl, id⟩, .refl _⟩
  have h5 : ∀ (s : State) b, s.Grown (s.postAll b) := fun s b =>
    s.grown_forVoices fun v s => s.grown_postVoice _ b v
  have h6 : ∀ s : State, s.Grown s.sendTest := fun s => by
    unfold State.sendTest
    split
    · exact s.grown_placeRecord
    · exact .refl s
  exact (((((((h1.trans (h2 _)).trans (State.grown_takeRestScene _)).trans (h3 _)).trans (h4 _)).trans (h5 _ _)).trans
    (State.grown_keepRecord _ _))).trans (h6 _)

theorem State.grown_finishJob (s : State) : s.Grown s.finishJob := s.cycleMoved_finishJob.grown

theorem State.grown_completeSegment (s : State) : s.Grown s.completeSegment := by
  unfold State.completeSegment
  split
  · refine .trans ?_ (State.grown_finishJob _)
    split
    rotate_left
    · exact .refl s
    unfold State.segmentDone
    split
    · split
      · split
        · exact ⟨⟨rfl, rfl, rfl, rfl, rfl, rfl, rfl, id⟩, .refl _⟩
        · refine .trans (t := s.writeResult _) ⟨⟨rfl, rfl, rfl, rfl, rfl, rfl, rfl, id⟩, .refl _⟩ (State.grown_takeDecision _ _)
      · exact .refl s
    · exact .refl s
  · exact .refl s

theorem State.grown_completeFetch (s : State) : s.Grown s.completeFetch := by
  unfold State.completeFetch
  split
  · refine .trans ?_ (State.grown_finishJob _)
    split
    · exact (s.cycleMoved_fetchDone _ _ _).grown
    · exact .refl s
  · exact .refl s

theorem State.grown_completePlace (s : State) : s.Grown s.completePlace := by
  unfold State.completePlace
  split
  · refine .trans ?_ (State.grown_finishJob _)
    unfold State.placeDone
    split
    · exact (s.grown_setChannel _ _).trans (State.cycleMoved_advanceIfRunning _ _ _).grown
    · exact s.grown_setChannel _ _
    · exact (s.cycleMoved_advanceIfRunning _ _).grown
    · exact .refl s
  · exact .refl s

theorem State.grown_takeFrameSync (s : State) : s.Grown s.takeFrameSync := by
  simp only [State.takeFrameSync, State.audioReturn]
  split <;> exact ⟨⟨rfl, rfl, rfl, rfl, rfl, rfl, rfl, id⟩, .refl _⟩

theorem State.grown_loseAudio (s : State) : s.Grown s.loseAudio := by
  unfold State.loseAudio
  refine .trans ⟨⟨?_, ?_, ?_, ?_, ?_, ?_, ?_, ?_⟩, ?_⟩ (State.grown_withdrawClaims _) <;> first | rfl | exact id | exact .refl _

theorem State.grown_badFrame (s : State) : s.Grown s.badFrame := ⟨⟨rfl, rfl, rfl, rfl, rfl, rfl, rfl, id⟩, s.counters.grown_bump _⟩

theorem State.grown_takeChar (s : State) (c : Byte) : s.Grown (s.takeChar c) := by
  simp only [State.takeChar]
  have h : s.Grown (s.setLine s.line.atMark) := s.grown_setLine _ id
  split
  · refine h.trans ?_
    unfold State.appendChar
    split
    · exact State.grown_badFrame _
    · exact ⟨⟨rfl, rfl, rfl, rfl, rfl, rfl, rfl, id⟩, .refl _⟩
    · exact ⟨⟨rfl, rfl, rfl, rfl, rfl, rfl, rfl, id⟩, .refl _⟩
  all_goals exact h

theorem State.grown_takeReturnToMark (s : State) : s.Grown s.takeReturnToMark := by
  simp only [State.takeReturnToMark]
  have h : s.Grown (s.setLine s.line.atMark) := s.grown_setLine _ id
  split
  · exact h.trans (State.grown_badFrame _)
  · exact h.trans (State.grown_setLine _ _ id)
  · exact h
  · exact h
  · exact h
  · exact .refl s

theorem State.grown_clashTest (s : State) (i : StationId) (ws : Bool) : s.Grown (s.clashTest i ws) := by
  unfold State.clashTest
  split
  · exact ⟨⟨rfl, rfl, rfl, rfl, rfl, rfl, rfl, fun _ => rfl⟩, Counters.grown_bump _ _⟩
  · exact .refl _

theorem State.grown_route (s : State) (p : Pos) (h : Byte) (l : List Byte) : s.Grown (s.route p h l) := by
  unfold State.route
  split
  · exact ⟨⟨rfl, rfl, rfl, rfl, rfl, rfl, rfl, id⟩, .refl _⟩
  · exact State.grown_bump _ _
  · exact .refl _

theorem State.grown_judge (s : State) (chars : List Byte) (p : Pos) (ws : Bool) : s.Grown (s.judge chars p ws) := by
  unfold State.judge
  split
  · exact s.grown_bump _
  · split
    · refine .trans (.trans ?_ (State.grown_clashTest _ _ _)) (State.grown_route _ _ _ _)
      exact ⟨⟨rfl, rfl, rfl, rfl, rfl, rfl, rfl, id⟩, .refl _⟩
    · exact s.grown_bump _

theorem State.grown_endFrame (s : State) : s.Grown s.endFrame := by
  simp only [State.endFrame]
  have h : s.Grown (s.setLine s.line.readyAtBoundary) := s.grown_setLine _ id
  split
  · exact h
  · exact h.trans (State.grown_judge _ _ _ _)
  · exact h.trans (State.grown_setLine _ _ id)
  · exact h
  · exact .refl s
  · exact .refl s

theorem State.grown_takeBoundary (s : State) : s.Grown s.takeBoundary := by
  unfold State.takeBoundary
  split
  · exact s.grown_endFrame
  · exact .refl s

theorem State.grown_beginSend (s : State) : s.Grown s.beginSend := by
  unfold State.beginSend
  split <;> exact s.grown_setLine _ id

theorem State.grown_collide (s : State) (f : FrameInHand) : s.Grown (s.collide f) := by
  simp only [State.collide]
  have h := s.grown_bump .collide
  split
  · split
    · exact h.trans (State.grown_setLine _ _ id)
    · exact (h.trans (State.grown_setLine _ _ (by simp))).trans (State.grown_bump _ _)
  · split
    · exact h.trans (State.grown_setLine _ _ id)
    · exact (h.trans (State.grown_setLine _ _ (by simp))).trans (State.grown_bump _ _)

theorem State.grown_endSendForBreak (s : State) : s.Grown s.endSendForBreak := by
  unfold State.endSendForBreak
  split
  · exact s.grown_collide _
  · exact .refl s

theorem State.grown_hushListeners (s : State) : s.Grown s.hushListeners :=
  s.grown_abandonAnalysis.trans ⟨⟨rfl, rfl, rfl, rfl, rfl, rfl, rfl, id⟩, .refl _⟩

theorem State.grown_hushRenderer (s : State) : s.Grown s.hushRenderer := ⟨⟨rfl, rfl, rfl, rfl, rfl, rfl, rfl, id⟩, .refl _⟩

theorem State.grown_takeHush (s : State) : s.Grown s.takeHush := by
  let s1 := s.endSendForBreak.bump .hush
  have h1 : s.Grown s1 := s.grown_endSendForBreak.trans (State.grown_bump _ _)
  let s2 := s1.setLine (s1.line.breakLine s1.straps.id)
  have h2 : s1.Grown s2 := s1.grown_setLine _ id
  let s3 := s2.hushListeners.hushRenderer.withdrawClaims
  have h3 : s2.Grown s3 :=
    (s2.grown_hushListeners.trans (State.grown_hushRenderer _)).trans (State.grown_withdrawClaims _)
  have h4 : s3.Grown (s3.setLine s3.line.settleTransmitter) := s3.grown_setLine _ id
  exact ((h1.trans h2).trans h3).trans h4

theorem State.fixed_reportSuccess (s : State) (k : SlotContent) : s.Fixed (s.reportSuccess k) := by
  unfold State.reportSuccess
  split
  · exact ⟨rfl, rfl, rfl, rfl, rfl, rfl, rfl, id⟩
  · split
    · exact ⟨rfl, rfl, rfl, rfl, rfl, rfl, rfl, id⟩
    · exact .refl _

theorem State.fixed_takeEcho (s : State) (h : Option Byte) : s.Fixed (s.takeEcho h) := by
  unfold State.takeEcho
  split
  · unfold State.checkEcho
    split
    · split
      · exact ⟨rfl, rfl, rfl, rfl, rfl, rfl, rfl, id⟩
      · simp only [State.sendSuccess]
        refine .trans ?_ (State.fixed_reportSuccess _ _)
        refine ⟨rfl, rfl, rfl, rfl, rfl, rfl, rfl, fun h => ?_⟩
        simpa using h
    · exact (s.grown_collide _).1
  · exact .refl s

theorem State.grown_takeEcho (s : State) (h : Option Byte) :
    s.counters.Grown (s.takeEcho h).counters ∨ (s.takeEcho h).counters = zeroCounters := by
  unfold State.takeEcho
  split
  · unfold State.checkEcho
    split
    · split
      · exact .inl (.refl _)
      · simp only [State.sendSuccess]
        unfold State.reportSuccess
        split
        · exact .inl (.refl _)
        · split
          · exact .inr rfl
          · exact .inl (.refl _)
    · exact .inl (s.grown_collide _).2
  · exact .inl (.refl _)

theorem State.grown_takeFrameStart (s : State) : s.Grown s.takeFrameStart := by
  unfold State.takeFrameStart
  split
  · exact s.grown_setLine _ id
  · exact .refl s

theorem State.grown_takeStartBit (s : State) : s.Grown s.takeStartBit := by
  unfold State.takeStartBit
  split <;> first | exact .refl s | exact s.grown_setLine _ id

/-- Every part but the echo check keeps the fixed parts and lets no counter fall; the echo check keeps the fixed parts.
-/
theorem State.kept_fixed (s0 : State) : Kept s0.Fixed where
  perform s o _ h := by
    have h1 : s.Fixed { s with owed := s.owed.erase o } := ⟨rfl, rfl, rfl, rfl, rfl, rfl, rfl, id⟩
    exact (h.trans h1).trans (State.grown_perform _ o).1
  accept s a h := h.trans (s.grown_acceptFrame a).1
  sync s _ h := h.trans s.grown_takeFrameSync.1
  loss s _ h := h.trans s.grown_loseAudio.1
  segment s _ h := h.trans s.grown_completeSegment.1
  expire s _ h := h.trans s.grown_expireEntries.1
  fetch s _ h := h.trans s.grown_completeFetch.1
  place s _ h := h.trans s.grown_completePlace.1
  frameStart s h := h.trans s.grown_takeFrameStart.1
  startBit s h := h.trans s.grown_takeStartBit.1
  char s c h := h.trans (s.grown_takeChar c).1
  returnToMark s h := h.trans s.grown_takeReturnToMark.1
  boundary s h := h.trans s.grown_takeBoundary.1
  hush s h := h.trans s.grown_takeHush.1
  idle _ _ _ h := h.trans ⟨rfl, rfl, rfl, rfl, rfl, rfl, rfl, id⟩
  send s h := h.trans s.grown_beginSend.1
  echo s x h := h.trans (s.fixed_takeEcho x)
  hear _ _ _ h := h.trans ⟨rfl, rfl, rfl, rfl, rfl, rfl, rfl, id⟩
  bits _ _ _ h := h.trans ⟨rfl, rfl, rfl, rfl, rfl, rfl, rfl, id⟩
  space _ h := h.trans ⟨rfl, rfl, rfl, rfl, rfl, rfl, rfl, id⟩
  spaceRun _ _ _ h := h.trans ⟨rfl, rfl, rfl, rfl, rfl, rfl, rfl, id⟩

end Sys2Proof.Machine
end

