-- ==== Sys2Proof/Laws/Effects.lean ====
section
/-! SUPPORT. Laws/Effects.lean: for each operation that several commands share, one lemma that says everything it does:
placements, grants, requests, postings to every voice, a scene taking effect, and the edges of ABCLK. -/

namespace Sys2Proof.Machine

/-! ### Counters -/

/-- An increment in the terms of R182. -/
theorem satSucc_eq_min (n : Nat) (h : n ≤ 65535) : satSucc Config.counterLimit n = min 65535 (n + 1) := by
  unfold satSucc Config.counterLimit
  split <;> omega

/-- Repeated increments add up, and stop at the limit. -/
theorem Counters.get_bump (c : Counters) (k j : Counter) :
    (c.bump k).get j = if j = k then satSucc Config.counterLimit (c.get j) else c.get j := by
  cases k <;> cases j <;> rfl

theorem Counters.ext_get {c d : Counters} (h : ∀ k, c.get k = d.get k) : c = d := by
  obtain ⟨⟩ := c
  obtain ⟨⟩ := d
  simp only [Counters.mk.injEq]
  exact ⟨h .late, h .repeats, h .drop, h .park, h .collide, h .giveUp, h .badFrame, h .inboxDrop, h .expire, h .clash,
    h .hush, h .clamp⟩

/-! ### The CLAIM slot -/

/-- A record placed in the CLAIM slot (R169, R170). -/
theorem LineControl.placeClaim_placed (l : LineControl) (r : ClaimRecord) : LineControl.ClaimPlaced r l (l.placeClaim r) := by
  unfold LineControl.ClaimPlaced LineControl.placeClaim LineControl.wake LineControl.pendingSlot
  have h : ∀ o : Option FrameInHand, o.map (FrameInHand.slotReplaced .claim) =
      o.map fun f => { f with replaced := f.replaced || decide (f.content.slot = .claim) } := by
    intro o
    cases o with
    | none => rfl
    | some f =>
      simp only [Option.map_some, FrameInHand.slotReplaced]
      split <;> simp_all
  by_cases hi : l.transmitter = .idle <;> rcases hc : l.clash <;> rcases hr : l.reportSlot <;>
    simp_all

/-! ### Grants and requests -/

theorem Job.rank_lt (j : Job) : j.rank < 9 := by
  cases j with
  | place v _ _ => cases v <;> simp [Job.rank, Voice.index]
  | fetch v _ _ => cases v <;> simp [Job.rank, Voice.index]
  | analysis _ _ => simp [Job.rank]

theorem nextJob_eq_none (l : List Job) : nextJob l = none ↔ l = [] := by
  unfold nextJob
  constructor
  · intro h
    cases l with
    | nil => rfl
    | cons j l =>
      have := List.findSome?_eq_none_iff.1 h j.rank (List.mem_range.2 j.rank_lt)
      simp at this
  · rintro rfl
    decide

/-- The job taken waits, and none that waits has a lower rank (R151). -/
theorem nextJob_eq_some {l : List Job} {j : Job} (h : nextJob l = some j) : j ∈ l ∧ ∀ k ∈ l, j.rank ≤ k.rank := by
  obtain ⟨l1, r, l2, e, h1, h2⟩ := List.findSome?_eq_some_iff.1 h
  have hr : j.rank = r := by simpa using List.find?_some h1
  refine ⟨List.mem_of_find?_eq_some h1, fun k hk => ?_⟩
  by_contra hlt
  have hp : (List.range 9).Pairwise (· < ·) := List.pairwise_lt_range
  have hm : k.rank ∈ List.range 9 := List.mem_range.2 k.rank_lt
  rw [e] at hp hm
  have hk1 : k.rank ∈ l1 := by
    rcases List.mem_append.1 hm with h | h
    · exact h
    · rcases List.mem_cons.1 h with h | h
      · omega
      · have := (List.pairwise_cons.1 (List.pairwise_append.1 hp).2.1).1 _ h
        omega
  have := h2 _ hk1
  simp only [List.find?_eq_none, beq_iff_eq] at this
  exact this k hk rfl

/-- A grant at a FREE unit (R151). -/
theorem Arbiter.grant_from (l : List Job) : ({ running := none, list := l } : Arbiter).grant.GrantedFrom l := by
  unfold Arbiter.grant
  rcases h : nextJob l with _ | j
  · rw [nextJob_eq_none] at h
    subst h
    exact ⟨fun _ => rfl, fun h => absurd rfl h⟩
  · have hj := nextJob_eq_some h
    refine ⟨fun e => ?_, fun _ => ⟨j, hj.1, hj.2, rfl⟩⟩
    subst e
    exact absurd hj.1 (by simp)

/-- A request changes the arbiter alone: at a FREE unit it competes in a grant, at a BUSY one it waits (R150, R151). -/
theorem State.request_from (s : State) (j : Job) :
    ∃ b, s.request j = { s with arbiter := b } ∧
      (s.arbiter.running = none → b.GrantedFrom (s.arbiter.list ++ [j])) ∧
      (s.arbiter.running ≠ none → b = { s.arbiter with list := s.arbiter.list ++ [j] }) := by
  refine ⟨_, rfl, fun h => ?_, fun h => ?_⟩
  · have := Arbiter.grant_from (s.arbiter.list ++ [j])
    rwa [← h] at this
  · unfold Arbiter.grant
    rcases hr : s.arbiter.running with _ | r
    · exact absurd hr h
    · rfl

/-- A completion's grant changes the arbiter alone (R151, R152). -/
theorem State.finishJob_from (s : State) : ∃ b, s.finishJob = { s with arbiter := b } ∧ b.GrantedFrom s.arbiter.list :=
  ⟨_, rfl, Arbiter.grant_from _⟩

/-! ### Postings -/

/-- "No target" on a channel (R129). -/
theorem Channel.noTarget_posted (c : Channel) : c.NoTargetPosted c.noTarget := by
  unfold Channel.NoTargetPosted Channel.noTarget
  rcases h : c.state <;> simp

/-- An operation on each voice in turn that looks at that voice's part alone: every voice comes out as if it were the
first. -/
theorem State.forVoices_eq (f : Voice → State → State) (s : State) (A : Voice → VoiceAlloc) (C : Voice → Channel)
    (h : ∀ v vs cs, vs.get v = s.voice v → cs.get v = s.channel v →
      f v { s with alloc := { s.alloc with voices := vs }, channels := cs } =
        { s with alloc := { s.alloc with voices := vs.set v (A v) }, channels := cs.set v (C v) }) :
    s.forVoices f = { s with alloc := { s.alloc with voices := Quad.ofFn A }, channels := Quad.ofFn C } := by
  show f .v3 (f .v2 (f .v1 (f .v0 s))) = _
  have h0 := h .v0 s.alloc.voices s.channels rfl rfl
  have h1 := h .v1 (s.alloc.voices.set .v0 (A .v0)) (s.channels.set .v0 (C .v0)) rfl rfl
  have h2 := h .v2 ((s.alloc.voices.set .v0 (A .v0)).set .v1 (A .v1)) ((s.channels.set .v0 (C .v0)).set .v1 (C .v1))
    rfl rfl
  have h3 := h .v3 (((s.alloc.voices.set .v0 (A .v0)).set .v1 (A .v1)).set .v2 (A .v2))
    (((s.channels.set .v0 (C .v0)).set .v1 (C .v1)).set .v2 (C .v2)) rfl rfl
  exact ((congrArg (fun t => f .v3 (f .v2 (f .v1 t))) h0).trans
    ((congrArg (fun t => f .v3 (f .v2 t)) h1).trans (congrArg (f .v3) h2))).trans h3

/-- "No target" posted to every enabled voice (R117, R123). -/
theorem State.postNoTargets_eq (s : State) :
    s.forVoices (fun v s => if s.enabled v then s.postNoTarget v else s) =
      { s with channels := Quad.ofFn fun v => if s.enabled v then (s.channel v).noTarget else s.channel v } := by
  rw [State.forVoices_eq _ s (fun v => s.voice v) fun v => if s.enabled v then (s.channel v).noTarget else s.channel v]
  · rfl
  · intro v vs cs hv hc
    have he : ({ s with alloc := { s.alloc with voices := vs }, channels := cs } : State).enabled v = s.enabled v := rfl
    rw [he, ← hv, ← hc, Quad.set_get]
    split
    · rfl
    · rw [Quad.set_get]

/-- Steps 5 and 6 of a decision without an allocation: every voice is cleared and every enabled one is posted "no
target"; nothing else changes (R112, R117). -/
theorem State.postAll_allocate_of_base_none {s : State} (h : s.allocationBase = none) (before : Quad VoiceAlloc) :
    s.allocate.postAll before =
      { s with
        alloc := { s.alloc with voices := Quad.const clearedVoice }
        channels := Quad.ofFn fun v => if s.enabled v then (s.channel v).noTarget else s.channel v } := by
  have ha : s.allocate = { s with alloc := { s.alloc with voices := Quad.const clearedVoice } } := by
    simp only [State.allocate, h]
  have hb : ({ s with alloc := { s.alloc with voices := Quad.const clearedVoice } } : State).allocationBase = none := h
  rw [ha, State.postAll, hb, State.forVoices_eq _ _ (fun _ => clearedVoice)
    fun v => if s.enabled v then (s.channel v).noTarget else s.channel v]
  · rfl
  · intro v vs cs hv hc
    have he : ∀ vs cs, ({ s with alloc := { s.alloc with voices := vs }, channels := cs } : State).enabled v =
        s.enabled v := fun _ _ => rfl
    have hv' : vs.get v = clearedVoice := by
      rw [hv]; cases v <;> rfl
    have hc' : cs.get v = s.channel v := hc
    have ht : ({ s with alloc := { s.alloc with voices := vs }, channels := cs } : State).voice v = clearedVoice := hv'
    unfold State.postVoice
    show (if s.enabled v = true then _ else _) = _
    rw [← hc']
    split
    · show (match (vs.get v).target, (none : Option (Nat × Nat)) with
        | some t, some (h, p) => _
        | _, _ => _) = _
      rw [hv']
      simp only [clearedVoice]
      unfold State.postVoiceNone State.postNoTarget
      rw [ht]
      rfl
    · rw [← hv', Quad.set_get, Quad.set_get]

/-! ### Scenes taking effect -/

/-- What a scene taking effect does to the voices (R118, R130). -/
theorem State.sceneVoices_eq (s : State) :
    s.forVoices State.sceneVoice =
      { s with
        alloc := { s.alloc with
          voices := Quad.ofFn fun v => if s.enabled v && s.ruleOff v then clearedVoice else s.voice v }
        channels := Quad.ofFn fun v =>
          if s.enabled v then (if s.ruleOff v then (s.channel v).sceneOff else (s.channel v).sceneOn)
          else s.channel v } := by
  apply State.forVoices_eq
  intro v vs cs hv hc
  have he : ({ s with alloc := { s.alloc with voices := vs }, channels := cs } : State).enabled v = s.enabled v := rfl
  have ho : ({ s with alloc := { s.alloc with voices := vs }, channels := cs } : State).ruleOff v = s.ruleOff v := rfl
  unfold State.sceneVoice
  rw [he, ho, ← hv, ← hc]
  rcases s.enabled v <;> rcases s.ruleOff v <;> simp [State.setVoice, State.setChannel, State.channel]

/-- What an abandonment does (02 section 2.4). -/
theorem State.abandonAnalysis_eq (s : State) :
    ((∃ a, s.tracker = .analysing a) →
      s.abandonAnalysis = { s with
        tracker := .waiting
        arbiter :=
          { list := s.arbiter.list.filter fun j => !j.isAnalysis
            running := s.arbiter.running.map fun r =>
              if r.job.isAnalysis then { r with fate := .discarded } else r } }) ∧
    ((¬ ∃ a, s.tracker = .analysing a) → s.abandonAnalysis = s) := by
  unfold State.abandonAnalysis
  rcases h : s.tracker with _ | _ | _ | a <;> simp [Arbiter.withdrawAnalysis]

/-- A channel whose new rule is OFF (R118, R130). -/
theorem Channel.sceneOff_eq (c : Channel) :
    (c.state = .parked → c.sceneOff = { c with state := .off }) ∧ (c.state ≠ .parked → c.NoTargetPosted c.sceneOff) := by
  unfold Channel.NoTargetPosted Channel.sceneOff Channel.noTarget
  rcases h : c.state <;> simp

/-- A channel whose new rule is not OFF (R130). -/
theorem Channel.sceneOn_eq (c : Channel) :
    (c.state = .off → c.sceneOn = { c with state := .parked }) ∧ (c.state ≠ .off → c.sceneOn = c) := by
  unfold Channel.sceneOn
  rcases h : c.state <;> simp

/-- A scene takes effect (R31, R67, R118, R130). -/
theorem State.sceneTakesEffect_taken (s : State) (scene : Scene) : s.SceneTakenEffect scene (s.sceneTakesEffect scene) := by
  let s1 : State := { s with scenes := { s.scenes with active := scene, pending := none } }
  have hs : s.sceneTakesEffect scene = s1.abandonAnalysis.forVoices State.sceneVoice := rfl
  rw [hs, State.sceneVoices_eq]
  have habs := s1.abandonAnalysis_eq
  have hparts : ∀ v : Voice, s1.abandonAnalysis.enabled v = s.enabled v ∧
      s1.abandonAnalysis.ruleOff v = decide ((scene.rules.get v).mode = .off) ∧
      s1.abandonAnalysis.voice v = s.voice v ∧ s1.abandonAnalysis.channel v = s.channel v := by
    intro v
    by_cases h : ∃ a, s1.tracker = .analysing a
    · rw [habs.1 h]
      exact ⟨rfl, rfl, rfl, rfl⟩
    · rw [habs.2 h]
      exact ⟨rfl, rfl, rfl, rfl⟩
  refine ⟨?_, fun h => ?_, fun h => ?_, fun v => ?_⟩
  · by_cases h : ∃ a, s1.tracker = .analysing a
    · rw [habs.1 h]
    · rw [habs.2 h]
  · rw [habs.1 h]
    exact ⟨rfl, rfl, rfl⟩
  · rw [habs.2 h]
    exact ⟨rfl, rfl⟩
  · obtain ⟨h1, h2, h3, h4⟩ := hparts v
    simp only [State.voice, State.channel, Quad.get_ofFn] at *
    rw [h1, h2, h3, h4]
    refine ⟨fun he => by simp [he], fun he hm => ?_, fun he hm => ?_⟩
    · have := (s.channels.get v).sceneOff_eq
      simp only [he, hm, decide_true, Bool.and_self, if_true]
      exact ⟨rfl, this.1, this.2⟩
    · have := (s.channels.get v).sceneOn_eq
      simp only [he, hm, decide_false, Bool.and_false, if_true, Bool.false_eq_true, if_false]
      exact ⟨trivial, this.1, this.2⟩

/-! ### Edges of ABCLK and the idle line -/

/-- What a falling edge of ABCLK does (R1, R3). -/
theorem State.takeFall_eq (s : State) (afsync : Bool) :
    (afsync = true → s.audio.syncHigh = false → s.takeFall afsync = s.takeFrameSync) ∧
    ((afsync = false ∨ s.audio.syncHigh = true) →
      s.takeFall afsync = { s with audio := s.audio.passFall afsync }) := by
  unfold State.takeFall
  cases afsync <;> cases s.audio.syncHigh <;> simp

/-- What a rising edge of ABCLK does (R1, R2). -/
theorem State.takeRise_eq (s : State) (adin : Bool) :
    (s.audio.inputBits = none → s.takeRise adin = s) ∧
    ∀ k, s.audio.inputBits = some k →
      (k < 23 → s.takeRise adin = { s with audio := s.audio.takeBit k adin }) ∧
      (k = 23 → s.takeRise adin = s.takeSample (shiftIn s.audio.inputReg adin)) ∧
      (24 ≤ k → s.takeRise adin = s) := by
  unfold State.takeRise
  refine ⟨fun h => by rw [h], fun k h => ?_⟩
  simp only [h, Config.sampleBits]
  refine ⟨fun hk => if_pos (by omega), ?_, fun hk => ?_⟩
  · rintro rfl
    rfl
  · rw [if_neg (by omega), if_neg (by omega)]

/-- The bits of a sample with one more bit shifted in (R1; log 7). -/
theorem getLsbD_shiftIn (x : Sample) (b : Bool) {i : Nat} (hi : i < 24) :
    (shiftIn x b).getLsbD i = if i = 0 then b else x.getLsbD (i - 1) := by
  simp only [shiftIn, BitVec.getLsbD_or, BitVec.getLsbD_shiftLeft, BitVec.getLsbD_setWidth, BitVec.getLsbD_ofBool]
  by_cases h : i = 0
  · simp [h]
  · have : ¬ i < 1 := by omega
    simp [h, hi, this]

/-- Where a frame boundary can be taken (R159, R161; log 2). -/
theorem LineControl.mayIdle_iff (l : LineControl) :
    l.mayIdle = true ↔ l.rx = .mark ∨ (l.rx ≠ .space ∧
      (l.receiver = .gapWait ∨ l.receiver = .skippingError ∨ ∃ id, l.receiver = .skippingGroup id)) := by
  unfold LineControl.mayIdle
  cases l.rx <;> cases l.receiver <;> simp

end Sys2Proof.Machine
end

