-- ==== Sys2Proof/Tests/Slice0.lean ====
section
/-! SUPPORT. Tests/Slice0.lean: the smoke test of WellFormed, worked examples of spec/ with the values the spec gives, and
for each statement with hypotheses a state and operands that meet them. -/

namespace Sys2Proof.Tests

open Sys2Proof.Machine

/-! ### Small states -/

/-- Right after reset, at this stage clock value, with audio PRESENT and the tracker in this state. -/
def present (tracker : Tracker) (clock : Pos) : State :=
  { State.reset with
    audio := { State.reset.audio with state := .present, lossTimer := some 0, fresh := 4096 }
    tracker := tracker
    clock := clock }

/-- The state with these steps come about and not yet taken. -/
def owing (owed : List Owed) (s : State) : State := { s with owed := owed }

/-- The state with this job running and these waiting. -/
def busy (running : Option Running) (list : List Job) (s : State) : State :=
  { s with arbiter := { running := running, list := list } }

/-- An analysis whose gate no silent window reaches. -/
def gated : Analysis := { tick := 4096, gate := 255, threshold := 160, segment := 1, level := none, search := none }

/-- An analysis whose gate every window reaches. -/
def open0 : Analysis := { gated with gate := 0 }

/-- A station whose segment 1 of this analysis is about to complete on a silent ring. -/
def analysing (a : Analysis) : State :=
  busy (some { job := .analysis a.tick 1, fate := .live }) [] (present (.analysing a) 4100)

/-- A source mark at sample 332, and a grain of it with one sample. -/
def mark0 : Mark := { pos := 5312, period := 1600, voiced := true }

/-- A second source mark, at sample 333. -/
def mark1 : Mark := { pos := 5328, period := 1600, voiced := true }

/-- The grain of mark0, with one sample. -/
def grain0 : Grain := { mark := mark0, samples := [(0, 100)] }

/-- A channel in mid cycle, with its output mark at sample 1000 and this next register. -/
def cycling (state : VoiceState) (next : NextReg) : Channel :=
  { state := state, ramp := 256, rampStart := some 800, leaveRate := 1, stepInForce := some 4096,
    outputMark := some 16000, placementPoint := none, current := some grain0, next := next, overlap := [],
    cycleRunning := true }

/-- A sounding station at stage clock 900 whose voice 0 has this channel. -/
def rendering (c : Channel) : State := State.setChannel .v0 c (present .waiting 900)

/-- The PLACE of grain0 at sample 1000 for voice 0. -/
def place0 : Job := .place .v0 grain0 16000

/-- A rule with this mode and interval. -/
def ruleOf (mode : RuleMode) (primary : Int) : VoiceRule := { defaultRule with mode := mode, primary := primary }

/-- The station with this rule for every voice of its active scene. -/
def withRules (r : VoiceRule) (s : State) : State :=
  { s with scenes := { s.scenes with active := { defaultScene with rules := Quad.const r } } }

/-- A frame in hand of three characters with this many matched. -/
def inHand (sent : Nat) (content : SlotContent) : FrameInHand :=
  { chars := [0x10, 0x00, 0x00], sent := sent, content := content, replaced := false }

/-- The line at mark with this receiver. -/
def receiving (r : Receiver) : State :=
  { State.reset with line := { State.reset.line with receiver := r } }

/-- A transmitter that is SENDING this frame. -/
def sendingLine (f : FrameInHand) : LineControl :=
  { State.reset.line with transmitter := .sending, frameInHand := some f }

/-- The station with this line controller. -/
def onLine (l : LineControl) : State := { State.reset with line := l }

/-- A claim of this sender with no voices. -/
def claimOf (sender : StationId) : ClaimMsg := { sender := sender, live := 64, items := [] }

/-- A raw rule with this many alternates. -/
def rawRule (alternates : List Byte) : RawRule :=
  { mode := 2, primary := 5, level := 100, pan := 0, flags := 0, alternates := alternates }

/-- A scene with this rule for every voice and this switch mode and delay. -/
def sceneOf (r : RawRule) (switchMode : Byte) (delay : BitVec 24) : SceneMsg :=
  { number := 3, root := 0, scale := 0, threshold := 160, gate := 8, options := 0, glide := 0,
    switchMode := switchMode, delay := delay, rules := Quad.const r }

/-! ### WellFormed -/

theorem test_claim_with_four_items_is_well_formed :
    (Instr.claim { sender := 3, live := 0, items := List.replicate 4 ⟨.v0, false, 64, 0⟩ }).wellFormed = true := by decide

theorem test_claim_with_five_items_is_refused :
    (Instr.claim { sender := 3, live := 0, items := List.replicate 5 ⟨.v0, false, 64, 0⟩ }).wellFormed = false := by
  decide

theorem test_scene_with_four_alternates_is_refused :
    (Instr.scene 0 (sceneOf (rawRule [1, 2, 3, 4]) 0 0)).wellFormed = false := by decide

theorem test_scene_with_three_alternates_is_well_formed :
    (Instr.scene 0 (sceneOf (rawRule [1, 2, 3]) 0 0)).wellFormed = true := by decide

/-! ### Worked examples of the spec -/

/-- 03 section 3.2, conversion examples at 48,000 samples/s and 440 Hz. -/
theorem test_conversion_examples :
    [2330, 2290, 2264, 2263, 2200, 2199, 13181, 437, 450].map (periodToPitch (periodTable 0 0)) =
      [some (64, 0), some (64, 31), some (64, 50), some (65, -49), some (65, -1), some (65, 0), some (34, 0),
        some (93, -4), some (92, 46)] := by decide +kernel

/-- 02 section 2.6, marks after the first analysis, and after the next tick. -/
theorem test_marks_of_the_first_two_analyses :
    (appendMarks 53600 53504 none false [] (.voiced 2290 64 31)).map (fun m => m.pos.toNat) = [851968, 854258] ∧
    (appendMarks 53860 53760 (some 856064) false
      [⟨851968, 2290, true⟩, ⟨854258, 2290, true⟩] (.voiced 2290 64 31)).map (fun m => m.pos.toNat) =
        [851968, 854258, 856548, 858838] := by decide +kernel

/-- 03 section 3.5, rows 2 to 12 of the worked follower sequence. -/
theorem test_follower_sequence :
    ([.voiced 2290 64 31, .voiced 2288 64 32, .voiced 2301 64 22, .voiced 2240 65 (-31), .voiced 1961 67 (-2),
      .voiced 1958 67 1, .unsure, .voiced 1960 67 (-1), .quiet, .quiet, .quiet] : List Reason).foldl
        (fun fs r => followerStep r (fs.headD .rest) :: fs) [] =
      [.rest, .lapsing 67 2 1960, .lapsing 67 1 1960, .held 67 1960, .lapsing 67 1 1958, .held 67 1958,
        .changing 64 67 1961, .changing 64 65 2240, .held 64 2301, .held 64 2288, .arming 64 2290] := by decide +kernel

/-- 05 section 5.4, worked arithmetic case and the limit cases. -/
theorem test_candidate_limit_cases :
    (stepFor (periodTable 0 0) .correct 64 2290 67, stepFor (periodTable 0 0) .follow 64 2290 67) = (4788, 4872) ∧
    [foldCandidate 64 83, foldCandidate 64 (diatonicCandidate 0 0 64 9), foldCandidate 64 (diatonicCandidate 0 0 64 (-14)),
      foldCandidate 90 97, foldCandidate 36 29, foldCandidate 85 97, diatonicCandidate 9 1 68 2,
      diatonicCandidate 0 0 61 0] = [71, 67, 52, 85, 41, 85, 71, 60] := by decide +kernel

/-- 05 section 5.5, the glide's posted steps. -/
theorem test_glide_steps :
    [glideStep 4872 5160 1 4, glideStep 4872 5160 2 4, glideStep 5016 6135 1 4, glideStep 5016 6135 2 4,
      glideStep 5016 6135 3 4, glideStep 5016 6135 4 4] = [4944, 5016, 5296, 5576, 5855, 6135] := by decide +kernel

/-- 05 section 5.6, the gains of the table and the worked mix. -/
theorem test_gains_and_mix :
    [127, 115, 107, 87, 67, 47, 1, 0].map gain = [32768, 16423, 10362, 3277, 1036, 328, 23, 0] ∧
    mixSamples ⟨voiceSample (1000000, 256) 115, voiceSample (-600000, 128) 127, 0, 0⟩
      ⟨{ defaultRule with pan := -32 }, { defaultRule with pan := 32 }, defaultRule, defaultRule⟩ =
      { voices := ⟨501190, -300000, 0, 0⟩, left := 300893, right := -99702 } := by decide +kernel

/-- The peers of 06 section 6.4, occupation tests against one map. -/
def peers : List PeerEntry :=
  [{ id := 3, live := some 64, silence := 2, voices := [⟨.v0, 67, 30, false⟩, ⟨.v1, 71, 5, true⟩] },
    { id := 9, live := none, silence := 0, voices := [⟨.v0, 72, 8, false⟩, ⟨.v2, 76, 40, false⟩] },
    { id := 11, live := some 60, silence := 41, voices := [⟨.v1, 69, 2, false⟩] }]

theorem test_occupation_tests :
    [64, 63, 61, 67, 71, 72, 69, 75, 77].map (clashes 6 peers false [] 0) =
      [true, true, true, true, false, false, false, true, true] ∧
    [67, 75, 72].map (clashes 6 peers false [] 20) = [true, false, false] ∧ clashes 6 peers false [71] 0 71 = true ∧
    [63, 61, 75, 77].map (clashes 6 peers true [] 0) = [false, false, false, false] := by decide

/-- 06 section 6.5, a full queue after a dropout, at station 2. -/
theorem test_full_queue :
    let s : State := { State.reset with straps := { State.reset.straps with id := 2 } }
    let t := ([5, 7, 2, 0, 12, 5, 3, 4, 8, 10, 14, 7, 14] : List StationId).foldl (fun s i => s.acceptClaim (claimOf i)) s
    (t.claimQueue.map fun m => m.sender) = [5, 7, 0, 12, 3, 4, 8, 10] ∧ t.counters.inboxDrop = 2 := by decide +kernel

/-- 09, the late analysis at the arbiter: voice 1's FETCH is granted ahead of voice 2's. -/
theorem test_fetches_rank_by_voice :
    (({ running := none, list := [.fetch .v2 none mark0, .analysis 60160 1, .fetch .v1 none mark1] } :
      Arbiter).grant).running = some { job := .fetch .v1 none mark1, fate := .live } := by decide

/-- 10 section 10.10: the gaps of stations 3, 7 and 4 and the backoff gaps of 3 and 7. -/
theorem test_gaps :
    [rotatingGap 3 1, rotatingGap 7 5, rotatingGap 4 3, rotatingGap 4 15, backoffGap 3, backoffGap 7, backoffGap 4] =
      [14, 14, 12, 20, 50, 58, 52] := by decide

/-! ### One step of a command -/

/-- 01, dropout and return: at the first frame sync audio is PRESENT with fresh count 0, FAULT low and o = 51,300. -/
theorem test_frame_sync_returns_audio :
    ∃ t, exec .frameSync { State.reset with clock := 51300 } = .next t ∧ t.audio.fresh = 0 ∧ t.faultPin = false ∧
      t.audio.out.map (fun f => f.position) = some 51300 ∧ t.tracker = .warming := by
  refine ⟨_, rfl, ?_⟩; decide

/-- 01: sample 51,300 arrives: the clock becomes 51,301 and entry 51,300 mod 4096 = 2148 holds it. -/
theorem test_sample_arrival :
    ∃ t, exec (.sampleArrival 0x7FFFFF) (present .waiting 51300) = .next t ∧ t.clock = 51301 ∧
      t.ring = [(2148, 0x7FFFFF)] := by
  refine ⟨_, rfl, ?_⟩; decide +kernel

/-- R10: the arrival that brings the clock to 256 owes a tick, and the tick starts an analysis at once. -/
theorem test_arrival_owes_a_tick :
    ∃ t, exec (.sampleArrival 0) (present .waiting 255) = .next t ∧ t.owed = [.analysisTick] := by
  refine ⟨_, rfl, ?_⟩; decide +kernel

/-- 02: both fall at one arrival: the tracker first leaves WARMING and then takes the tick in WAITING. -/
theorem test_tick_after_warming :
    ∃ t, exec .analysisTick (owing [.leaveWarming, .analysisTick] (present .warming 2048)) = .next t ∧
      t.arbiter.running = some { job := .analysis 2048 1, fate := .live } ∧ t.owed = [] := by
  refine ⟨_, rfl, ?_⟩; decide

/-- R14: a loss of audio raises FAULT and drops ADOUT. -/
theorem test_loss_of_audio :
    ∃ t, exec .lossOfAudio (present .waiting 51300) = .next t ∧ t.faultPin = true ∧ t.adout = false ∧
      t.clock = 51300 ∧ t.tracker = .absent := by
  refine ⟨_, rfl, ?_⟩; decide

/-- The edges of a frame: AFSYNC high at the first falling edge, then the bits of x, then ones that are ignored. -/
def frameEdges (x : Sample) : List AudioEdge :=
  [.fall true] ++ ((List.range 24).flatMap fun i => [.rise (x.getLsbD (23 - i)), .fall false]) ++ [.rise true, .rise true]

/-- R1: a frame sync and 24 bits, most significant first, bring their sample; the bits after it are ignored. R3, R4:
ADOUT stands at bit 24 of the frame. -/
theorem test_edges_bring_a_sample :
    let t := passEdges (frameEdges 0x812345) { State.reset with clock := 51300 }
    t.clock = 51301 ∧ t.ring = [(2148, 0x812345)] ∧ t.audio.fresh = 1 ∧ t.audio.inputReg = 0x812345 ∧
      t.audio.out.map (fun f => (f.position, f.driven)) = some (51300, 24) := by decide +kernel

/-- R2: a frame sync before the 24th bit discards the bits taken, and no sample arrives. -/
theorem test_short_frame_brings_no_sample :
    let t := passEdges ([.fall true, .rise true, .fall false, .rise true] ++ [.fall true]) State.reset
    t.clock = 0 ∧ t.audio.inputReg = 0 ∧ t.audio.inputBits = some 0 ∧ t.audio.syncHigh = true := by decide

/-- R161: a start bit in GAP_WAIT, then 12 bit times of idle: READY. -/
theorem test_boundary_after_an_unassembled_character :
    ∃ t u, exec .startBit State.reset = .next t ∧ exec .frameBoundary t = .next u ∧ u.line.receiver = .ready ∧
      u.line.rx = .mark ∧ u.line.idle = 12 := by
  refine ⟨_, _, rfl, rfl, ?_⟩; decide

/-- R22: a silent window is QUIET with confidence 0, and the tracker waits again. -/
theorem test_silent_window_is_quiet :
    ∃ t, exec .segmentCompletion (analysing gated) = .next t ∧ t.tracker = .waiting ∧
      t.result = { frame := 4096, reason := .quiet, conf := 0, level := 0 } := by
  refine ⟨_, rfl, ?_⟩; decide +kernel

/-- 04 section 4.7: acceptance at 100,021 of a delay of 4800 from capture 100,000 is due at 104,800. -/
theorem test_scene_waits_for_its_due_point :
    ∃ t, exec (.scene 100000 (sceneOf (rawRule [3]) 2 4800)) { State.reset with clock := 100021 } = .next t ∧
      (t.scenes.pending.map fun p => p.condition) = some (.atDelay 104800) ∧ t.counters.clamp = 0 := by
  refine ⟨_, rfl, ?_⟩; decide

/-- R61, R62: a number of 200 and a root of 14 are clamped, and CLAMP is counted once. -/
theorem test_scene_is_clamped_once :
    ∃ t, exec (.scene 0 { sceneOf (rawRule []) 0 0 with number := 200, root := 14 }) State.reset = .next t ∧
      t.scenes.active.number = 127 ∧ t.scenes.active.root = 2 ∧ t.counters.clamp = 1 := by
  refine ⟨_, rfl, ?_⟩; decide

/-- 08 section 8.6: the completion at 40,644 puts the output mark at 40,850 and the placement point at 40,687. -/
theorem test_place_completion_of_the_octave_cycle :
    let g : Grain := { mark := { pos := 640000, period := 1600, voiced := true }, samples := [(-1584, 0)] }
    let c : Channel := { cycling .sounding (.ready g) with
      current := some g, stepInForce := some 8192, outputMark := some 652800 }
    let s := busy (some { job := .place .v2 g 652800, fate := .live }) [] (State.setChannel .v2 c (present .waiting 40644))
    ∃ t, exec .placeCompletion { s with marks := [g.mark, { g.mark with pos := 641600 }] } = .next t ∧
      (t.channel .v2).outputMark = some (40850 * 16) ∧ (t.channel .v2).placementPoint = some 40687 ∧
      (t.channel .v2).next = .fetching { g.mark with pos := 641600 } := by
  refine ⟨_, rfl, ?_⟩; decide +kernel

/-- R162: a length byte of 61 is bad at once. -/
theorem test_long_length_is_bad :
    ∃ t, exec (.characterReceived 61) (receiving (.receiving [0x10] 0 false)) = .next t ∧
      t.line.receiver = .skippingError ∧ t.counters.badFrame = 1 := by
  refine ⟨_, rfl, ?_⟩; decide

/-- 10 section 10.10, time 36: a frame of one character is bad. -/
theorem test_fragment_is_bad :
    ∃ t, exec .frameBoundary (receiving (.receiving [0x13] 0 false)) = .next t ∧ t.line.receiver = .ready ∧
      t.counters.badFrame = 1 ∧ t.line.lastSender = 0 := by
  refine ⟨_, rfl, ?_⟩; decide

/-- R167, R168: the own id heard while not sending sets the clash flag. -/
theorem test_own_id_heard_is_a_clash :
    ∃ t, exec .frameBoundary (receiving (.receiving (buildFrame 1 0 [0, 0]) 0 false)) = .next t ∧
      t.line.clash = true ∧ t.counters.clash = 1 ∧ t.faultPin = true := by
  refine ⟨_, rfl, ?_⟩; decide +kernel

/-- 10 section 10.10, time 24: a mismatch is the first collision and backs off. -/
theorem test_mismatch_backs_off :
    ∃ t, exec (.echoCheck (some 0x13)) (onLine (sendingLine (inHand 0 (.report false)))) = .next t ∧
      t.line.transmitter = .backoff ∧ t.line.collisions = 1 ∧ t.counters.collide = 1 := by
  refine ⟨_, rfl, ?_⟩; decide

/-- 11 section 11.5: the success of a clearing REPORT sets every counter to 0. -/
theorem test_clearing_report :
    ∃ t, exec (.echoCheck (some 0x00)) { onLine { sendingLine (inHand 2 (.report true)) with reportSlot := some true } with
        counters := { zeroCounters with late := 3, badFrame := 6, collide := 1 } } = .next t ∧
      t.counters = zeroCounters ∧ t.line.reportSlot = none ∧ t.line.transmitter = .idle := by
  refine ⟨_, rfl, ?_⟩; decide

/-- R164: a break raises one hush, and the line stays in BREAK until it returns to mark. -/
theorem test_break_raises_one_hush :
    ∃ t u, exec .hush State.reset = .next t ∧ exec .hush t = .next u ∧ u.counters.hush = 1 ∧
      u.line.receiver = .breaking := by
  refine ⟨_, _, rfl, rfl, ?_⟩; decide

/-- R158: the ten levels of 43 hexadecimal are a start bit in READY and that character. -/
theorem test_ten_levels_are_a_character :
    let s := [false, true, true, false, false, false, false, true, false, true].foldl (fun s b => State.lineBit b s)
      (receiving .ready)
    s.line.receiver = .receiving [0x43] 0 false ∧ s.line.idle = 0 := by decide +kernel

/-- R36: a cover end more than 2^23 samples behind has been remembered as too far, and the span starts at the limit. -/
theorem test_far_cover_end_starts_at_the_limit :
    spanStart 53600 53504 (some (53600 - 0x900000 : Pos).sixteenths) true = (53599 : Pos).sixteenths - 36864 := by decide

/-- R170: a start bit has come, so no send starts inside the character. -/
theorem test_start_bit_defers_the_send :
    ∃ t u, exec .frameStart (onLine { (receiving .ready).line with transmitter := .deferring }) = .next t ∧
      exec .sendStart t = .next u ∧ u = t ∧ u.line.transmitter = .deferring := by
  refine ⟨_, _, rfl, rfl, rfl, rfl⟩

/-! ### Witnesses: a state and operands that meet the hypotheses of each statement, at boundary values -/

/-- The state of these witnesses that takes commands as they come. -/
theorem witness_ready : State.reset.ready ∧ (present .waiting 0).ready := ⟨⟨rfl, rfl⟩, rfl, rfl⟩

theorem witness_StepTakesTheFrontCommand :
    ({ State.reset with pending := [.frameSync, .hush] } : State).pending = .frameSync :: [.hush] := rfl

theorem witness_CommandsLeaveTheQueue :
    ∃ t, exec .hush { State.reset with pending := [.frameSync] } = .next t := ⟨_, rfl⟩

theorem witness_LowResetHoldsThroughEveryStep :
    let s : State := { State.reset with resetN := false, pending := [.hush] }
    s.heldInReset ∧ ∃ t, step s = .next t := ⟨fun _ => rfl, _, rfl⟩

theorem witness_LowResetTakesNothing :
    ({ State.reset with resetN := false } : State).resetN = false ∧ Instr.hush ≠ .resetAssert ∧
      ∀ p m, Instr.hush ≠ .resetRelease p m := ⟨rfl, nofun, nofun⟩

theorem witness_FrameSyncOpensAnOutputFrame :
    (State.reset.ready ∧ State.reset.audio.state = .absent) ∧
      ({ present .waiting 0 with audio := { (present .waiting 0).audio with fresh := 768 } } : State).ready ∧
      (present .waiting 0).audio.state = .present := by
  exact ⟨⟨⟨rfl, rfl⟩, rfl⟩, ⟨rfl, rfl⟩, rfl⟩

/-- AFSYNC low and high, no frame sync yet, and 22, 23 and 24 bits of slot 0 taken; the output frame at its end. -/
theorem witness_EdgesBringSyncsBitsAndArrivals :
    let f : OutFrame := { position := 0, slots := frameSlots 0 silentMixer, driven := 256 }
    let s := fun k h => { present .waiting 0 with
      audio := { (present .waiting 0).audio with inputBits := k, syncHigh := h, inputReg := 0x400001, out := some f } }
    (s none false).ready ∧ (s none false).audio.syncHigh = false ∧ (s none true).audio.syncHigh = true ∧
      (∀ g, (s none true).audio.out = some g → g.driven ≤ 256) ∧ (s none false).audio.inputBits = none ∧
      ((s (some 24) false).audio.inputBits = some 24 ∧ 24 ≤ 24) ∧
      ((s (some 22) false).audio.inputBits = some 22 ∧ 22 < 23) ∧ (s (some 23) false).audio.inputBits = some 23 ∧
      ∀ i, i < 24 → (0x800003 : Sample).getLsbD i = if i = 0 then true else (0x400001 : Sample).getLsbD (i - 1) := by
  refine ⟨⟨rfl, rfl⟩, rfl, rfl, ?_, rfl, by decide, by decide, rfl, by decide⟩
  intro g h; cases h; decide

theorem witness_TwentyFourBitsBringTheirSample :
    ∃ t f, exec .frameSync (present .waiting 0) = .next t ∧ t.ready ∧ t.audio.state = .present ∧
      t.audio.inputBits = some 0 ∧ t.audio.out = some f ∧ f.driven = 0 :=
  ⟨_, _, rfl, ⟨rfl, rfl⟩, rfl, rfl, rfl, rfl⟩

theorem witness_SampleArrivalCapturesTheSample :
    let s := present .waiting 0xFFFFFF
    s.ready ∧ s.audio.state = .present ∧ s.audio.fresh ≤ 4096 ∧ s.ringCanonical :=
  ⟨⟨rfl, rfl⟩, rfl, by decide, rfl, nofun⟩

/-- Voices entering without and with a ramp start at the newly due position, sounding, and leaving at ramp count 1. -/
def ramping : State :=
  { present .waiting 799 with
    channels := ⟨{ cycling .entering .empty with rampStart := none, ramp := 0 },
      { cycling .entering .empty with ramp := 255 }, cycling .sounding .empty,
      { cycling .leaving .empty with ramp := 1 }⟩ }

theorem witness_DuePositionAdvancesTheRamps :
    ramping.ready ∧ ramping.audio.state = .present ∧ ramping.overlapsCanonical ∧
      ((ramping.channel .v0).state = .entering ∧ (ramping.channel .v0).rampStart = none) ∧
      ((ramping.channel .v1).state = .entering ∧ (ramping.channel .v1).rampStart = some 800 ∧
        0 ≤ (ramping.clock + 1 - 800).toInt) ∧
      (ramping.channel .v2).state = .sounding ∧ (ramping.channel .v3).state = .leaving ∧
      ((present .waiting 0).channel .v0).state = .off := by
  refine ⟨⟨rfl, rfl⟩, rfl, ?_, by decide⟩
  intro v; cases v <;> exact ⟨rfl, nofun⟩

theorem witness_RoundingTakesHalvesUpward : 0 < (1 : Nat) := by decide

/-- A PLACE of voice 0 waits and one of voice 1 runs, both due at the coming arrival. -/
theorem witness_ArrivalBringsItsSteps :
    let s := busy (some { job := .place .v1 grain0 16000, fate := .addsOnly }) [.place .v0 grain0 16000]
      (present .waiting 999)
    s.ready ∧ s.audio.state = .present ∧ Job.place .v0 grain0 16000 ∈ s.arbiter.list ∧
      0 ≤ (s.clock + 1 - firstPosition grain0 16000).toInt ∧ (Fate.addsOnly = .live ∨ Fate.addsOnly = .addsOnly) := by
  exact ⟨⟨rfl, rfl⟩, rfl, by decide, by decide, by decide⟩

theorem witness_LossOfAudioSilencesTheStation : (present .waiting 5).ready ∧ (present .waiting 5).audio.state = .present :=
  ⟨⟨rfl, rfl⟩, rfl⟩

theorem witness_WarmingEndsInWaiting :
    let s : State := owing [.leaveWarming] { present .warming 2048 with
      audio := { (present .warming 2048).audio with fresh := 2048 } }
    s.resetN = true ∧ Owed.leaveWarming ∈ s.owed ∧ s.tracker = .warming ∧ 2048 ≤ s.audio.fresh := by decide

theorem witness_TickStartsAnAnalysisOrIsLate :
    (let s := owing [.analysisTick] (present .waiting 256);
      s.resetN = true ∧ Owed.analysisTick ∈ s.owed ∧ Owed.leaveWarming ∉ s.owed ∧ s.tracker = .waiting ∧
        s.arbiter.running = none) ∧
    (let s := owing [.leaveWarming, .analysisTick] (busy (some ⟨place0, .live⟩) [] (present .warming 2048));
      s.resetN = true ∧ Owed.analysisTick ∈ s.owed ∧ Owed.leaveWarming ∈ s.owed ∧ s.tracker = .warming ∧
        2048 ≤ s.audio.fresh ∧ s.arbiter.running ≠ none) ∧
    (let s := owing [.analysisTick]
        { present (.analysing gated) 4352 with counters := { zeroCounters with late := 65535 } };
      s.resetN = true ∧ Owed.analysisTick ∈ s.owed ∧ Owed.leaveWarming ∉ s.owed ∧ s.tracker = .analysing gated ∧
        s.counters.late ≤ 65535) ∧
    (let s := owing [.analysisTick] (present .warming 256);
      s.resetN = true ∧ Owed.analysisTick ∈ s.owed ∧ Owed.leaveWarming ∉ s.owed ∧ s.tracker = .warming) := by decide

theorem witness_WindowOverwriteAbandonsTheAnalysis :
    let s := owing [.windowOverwrite] { present (.analysing gated) (4096 + 2049) with
      counters := { zeroCounters with late := 65535 } }
    s.resetN = true ∧ Owed.windowOverwrite ∈ s.owed ∧ s.tracker = .analysing gated ∧
      2048 < (s.clock - gated.tick).toInt ∧ s.counters.late ≤ 65535 := by decide

/-- A segment that goes on, one of an abandoned analysis, and one of an analysis that is no longer in flight. -/
theorem witness_SegmentCompletionGoesOn :
    (let s := analysing open0;
      s.ready ∧ s.arbiter.running = some { job := .analysis 4096 1, fate := .live } ∧ s.tracker = .analysing open0 ∧
        open0.tick = 4096 ∧
        runSegment s.npt (analysisWindow s.ring 4096) open0 = .goesOn { open0 with segment := 2, level := some 0 }) ∧
    (let s := busy (some { job := .analysis 4096 1, fate := .discarded }) [.analysis 4096 1]
        (present (.analysing open0) 4100);
      s.ready ∧ s.arbiter.running = some { job := .analysis 4096 1, fate := .discarded } ∧ Fate.discarded ≠ .live) ∧
    (let s := busy (some { job := .analysis 3840 1, fate := .live }) [] (present (.analysing open0) 4100);
      s.ready ∧ s.arbiter.running = some { job := .analysis 3840 1, fate := .live } ∧
        ∀ a, s.tracker = .analysing a → a.tick ≠ 3840) := by
  refine ⟨⟨⟨rfl, rfl⟩, rfl, rfl, rfl, by decide +kernel⟩, ⟨⟨rfl, rfl⟩, rfl, nofun⟩, ⟨rfl, rfl⟩, rfl, ?_⟩
  intro a h; cases h; decide

theorem witness_DifferenceSumsTheLaggedDistances : 896 ≤ 896 := by decide

theorem witness_LevelGateEndsQuietWindows : gated.segment = 1 := rfl

theorem witness_RefinementTakesTheLeastNeighbour :
    (24 ≤ 24 ∧ 24 ≤ 896 ∧ 0 = difference [] 24) ∧ 24 ≤ 896 ∧ 896 ≤ 896 ∧ 0 = difference [] 896 := by decide

theorem witness_PeriodConvertsToNoteAndCents :
    let npt := periodTable 0 0
    (nptEntry npt 33 < 13965 ∧ 435 < nptEntry npt 93) ∧
      (nptEntry npt 34 < 13964 ∧ 13964 ≤ nptEntry npt 33) ∧ (nptEntry npt 93 < 437 ∧ 437 ≤ nptEntry npt 92) ∧
      436 = nptEntry npt 93 := by decide +kernel

/-- The shortest period; a voiced run goes on after a voiced mark, an unvoiced span starts anew after one. -/
theorem witness_MarksContinueTheirRunOrStartTheSpan :
    (1 ≤ match (Reason.voiced 1 33 0) with | .voiced p _ _ => p | _ => 2048) ∧
      (1 ≤ match Reason.quiet with | .voiced p _ _ => p | _ => 2048) ∧
      ([({ pos := 854258, period := 2290, voiced := true } : Mark)].dropWhile fun m =>
        decide (36864 < (((53860 : Pos) - 1).sixteenths - m.pos).toInt)).getLast? =
          some { pos := 854258, period := 2290, voiced := true } := by decide

theorem witness_FollowerLapsesOnUnvoicedResults : (Reason.quiet = .quiet) ∧ Reason.unsure = .unsure ∧
    Reason.outOfRange = .outOfRange := ⟨rfl, rfl, rfl⟩

/-- A completion that ends its analysis, for the statements of a decision: a record due after 16 decisions, a scene that
waits for rest, and bypass. -/
theorem witness_AnalysisCompletionLeadsToOneDecision :
    let s := analysing gated
    s.ready ∧ s.arbiter.running = some { job := .analysis gated.tick 1, fate := .live } ∧ s.tracker = .analysing gated ∧
      runSegment s.npt (analysisWindow s.ring gated.tick) gated =
        .ends { frame := 4096, reason := .quiet, conf := 0, level := 0 } ∧
      s.alloc.sinceSend ≤ 16 ∧ s.alloc.sincePlacement ≤ 8 ∧ s.counters.expire ≤ 65535 :=
  ⟨⟨rfl, rfl⟩, rfl, rfl, by decide +kernel, by decide, by decide, by decide⟩

theorem witness_DecisionPlacesTheRecordWhenDue :
    (analysing gated).alloc.lastSent = none ∧ 16 ≤ (analysing gated).alloc.sinceSend + 1 ∧
      (if (analysing gated).straps.rate = 0 then 2 else 8) ≤ min 8 ((analysing gated).alloc.sincePlacement + 1) := by
  decide

/-- Not due: the second decision after a placement has passed at a bit time of 1 µs, the first has not. -/
theorem witness_DecisionDoesNotPlaceTheRecord :
    let s := analysing gated
    let u := { s with alloc := { s.alloc with sincePlacement := 0 } }
    u.ready ∧ u.arbiter.running = some { job := .analysis gated.tick 1, fate := .live } ∧
      u.tracker = .analysing gated ∧
      runSegment u.npt (analysisWindow u.ring gated.tick) gated =
        .ends { frame := 4096, reason := .quiet, conf := 0, level := 0 } ∧
      u.alloc.sinceSend ≤ 16 ∧ u.alloc.sincePlacement ≤ 8 ∧
      ¬ (if u.straps.rate = 0 then 2 else 8) ≤ min 8 (u.alloc.sincePlacement + 1) :=
  ⟨⟨rfl, rfl⟩, rfl, rfl, by decide +kernel, by decide, by decide, by decide⟩

/-- Nothing pending in REST; bypass with a held note, where a scene that waits for rest goes on waiting; and such a
scene that takes effect, whose rule is OFF for voice 0, which is PARKED or LEAVING, and not for voice 1, which is OFF.
-/
theorem witness_RestingDecisionRemovesEveryTarget :
    let s := analysing gated
    let p : PendingScene :=
      { scene := { defaultScene with rules := defaultScene.rules.set .v1 (ruleOf .semitone 7) }, condition := .atRest }
    let b := { s with
      follower := .held 64 2330, scenes := { resetScenes with bypass := true, pending := some p } }
    let u := fun c => { s with
      straps := { s.straps with nv := 1 }
      scenes := { resetScenes with pending := some p }
      channels := s.channels.set .v0 c }
    (s.ready ∧ (followerStep .quiet s.follower).heldNote = none ∧ s.scenes.pending = none) ∧
    (b.ready ∧ b.scenes.bypass = true ∧ (followerStep .quiet b.follower).heldNote = some 64 ∧
      followerStep .quiet b.follower ≠ .rest) ∧
    ((u resetChannel).ready ∧ (u resetChannel).scenes.pending = some p ∧ p.condition = .atRest ∧
      followerStep .quiet (u resetChannel).follower = .rest ∧
      (u resetChannel).enabled .v0 = true ∧ (u resetChannel).enabled .v1 = true ∧
      (p.scene.rules.get .v0).mode = .off ∧ (p.scene.rules.get .v1).mode ≠ .off ∧
      ((u { resetChannel with state := .parked }).channel .v0).state = .parked ∧
      ((u { resetChannel with state := .leaving }).channel .v0).state = .leaving ∧
      ((u resetChannel).channel .v1).state = .off) :=
  ⟨⟨⟨rfl, rfl⟩, rfl, rfl⟩, ⟨⟨rfl, rfl⟩, by decide⟩, ⟨rfl, rfl⟩, by decide⟩

theorem witness_RestSceneWaitsForRest :
    let p : PendingScene := { scene := defaultScene, condition := .atRest }
    let s := { analysing gated with scenes := { resetScenes with pending := some p } }
    let u := { s with follower := .held 64 2330 }
    (s.ready ∧ s.scenes.pending = some p ∧ p.condition = .atRest ∧ followerStep .quiet s.follower = .rest) ∧
      u.ready ∧ followerStep .quiet u.follower ≠ .rest := by
  exact ⟨⟨⟨rfl, rfl⟩, rfl, rfl, rfl⟩, ⟨rfl, rfl⟩, by decide⟩

/-- A decision with note 64 held and four enabled voices: voices 0 and 3 have a target after the passes, voice 0 PARKED
and voice 3 SOUNDING; in the other state voice 3 is disabled. -/
theorem witness_DecisionAllocatesForTheHeldNote :
    let s : State := { withRules (ruleOf .semitone 7) (analysing gated) with
      follower := .held 64 2330
      straps := { State.reset.straps with nv := 3 }
      channels := ⟨{ resetChannel with state := .parked }, { resetChannel with state := .parked },
        { resetChannel with state := .parked }, cycling .sounding .empty⟩
      counters := { zeroCounters with park := 65535 } }
    let u := { s with alloc := { s.alloc with voices := s.alloc.voices.set .v3 { clearedVoice with target := some 71 } } }
    let passes := State.runPasses { u with map := [] } 64
    (u.ready ∧ u.arbiter.running = some { job := .analysis gated.tick 1, fate := .live } ∧
      u.tracker = .analysing gated ∧ u.scenes.bypass = false ∧
      (followerStep .quiet u.follower).heldNote = some 64 ∧ (followerStep .quiet u.follower).liveP = some 2330 ∧
      u.counters.park ≤ 65535) ∧
    runSegment u.npt (analysisWindow u.ring gated.tick) gated =
      .ends { frame := 4096, reason := .quiet, conf := 0, level := 0 } ∧
    (u.enabled .v3 = true ∧ (passes.voices.get .v3).target = some 71) ∧
    (u.enabled .v0 = true ∧ (passes.voices.get .v0).target = none) ∧
    ((State.runPasses { s with map := [] } 64).voices.get .v0).target = some 71 ∧ (s.channel .v0).state = .parked ∧
    State.reset.enabled .v3 = false := by
  refine ⟨⟨⟨rfl, rfl⟩, rfl, rfl, rfl, rfl, rfl, by decide⟩, by decide +kernel, by decide +kernel⟩

/-- The passes with these held notes and this voice 0. -/
def passesOf (a : VoiceAlloc) (taken : List Nat) : Passes :=
  { voices := Quad.const a, taken := taken, parks := 0 }

theorem witness_HoldPassKeepsFreeCandidates :
    let s := withRules (ruleOf .semitone 7) (present .waiting 0)
    let a := { clearedVoice with target := some 71, age := 255 }
    s.enabled .v0 = true ∧ ((passesOf a []).voices.get .v0).target = some 71 ∧
      ((s.rule .v0).mode ≠ .off ∧ 71 ∈ candidates s.scenes.active (s.rule .v0) 64 ∧
        clashes s.straps.id s.map s.scenes.active.rubs [] 255 71 = false) ∧
      clashes s.straps.id s.map s.scenes.active.rubs [71] 255 71 = true := by decide

theorem witness_AssignPassTakesTheFirstFreeCandidate :
    let r := { ruleOf .semitone 7 with alternates := [4], doubling := true }
    let s := withRules r (present .waiting 0)
    s.enabled .v0 = true ∧ (s.rule .v0).mode ≠ .off ∧ ((passesOf clearedVoice [71]).voices.get .v0).target = none ∧
      candidates s.scenes.active (s.rule .v0) 64 = [71] ++ 68 :: [] ∧
      clashes s.straps.id s.map s.scenes.active.rubs [71] 0 71 = true ∧
      clashes s.straps.id s.map s.scenes.active.rubs [71] 0 68 = false := by decide

/-- Every candidate clashes with a peer's live notes, so the primary may be doubled; or it is an own voice's already. -/
theorem witness_AssignPassDoublesOrWaits :
    let r := { ruleOf .semitone 7 with doubling := true }
    let s := { withRules r (present .waiting 0) with map := [{ id := 3, live := some 71, silence := 0, voices := [] }] }
    candidates s.scenes.active (s.rule .v0) 64 = 71 :: [] ∧ (s.rule .v0).doubling = true ∧
      clashes s.straps.id s.map s.scenes.active.rubs [] 0 71 = true ∧ 71 ∉ ([] : List Nat) ∧
      clashes s.straps.id s.map s.scenes.active.rubs [71] 0 71 = true ∧ ¬ (71 ∉ [71]) := by decide

theorem witness_FoldsBringCandidatesIntoRange :
    (33 ≤ (33 : Int) ∧ (33 : Int) ≤ 93) ∧ (33 - 12 ≤ (21 : Int) ∧ (21 : Int) ≤ 33 + 12) ∧ (33 : Int) + 12 < 46 ∧
      (80 : Int) < 93 - 12 := by decide

theorem witness_DegreeSnapTakesTheNearestOffset :
    33 ≤ (93 : Int) ∧ (93 : Int) ≤ 93 ∧ -14 ≤ (-14 : Int) ∧ (-14 : Int) ≤ 14 ∧ (14 : Int) ≤ 14 := by decide

theorem witness_CandidateListTakesThePrimaryFirst :
    let r := { ruleOf .diatonic (-14) with alternates := [14] }
    33 ≤ 33 ∧ 93 ≤ 93 ∧ r.mode ≠ .off ∧ (r.primary :: r.alternates)[0]? = some (-14) ∧
      (r.primary :: r.alternates)[1]? = some 14 ∧ r.mode = .diatonic ∧ (ruleOf .semitone 5).mode = .semitone := by decide

theorem witness_GlidesRunFromTheStepInForce :
    let c := cycling .sounding .empty
    let g : Glide := { origin := 2048, length := 1, position := 0 }
    (c.state = .sounding ∨ c.state = .gliding) ∧ c.stepInForce = some 4096 ∧ some 67 ≠ some 71 ∧ 1 ≤ g.length ∧
      (cycling .entering .empty).state ≠ .sounding ∧ (cycling .entering .empty).state ≠ .gliding ∧
      g.position < g.length ∧ g.position + 1 = g.length := by decide

theorem witness_ClaimReplacesItsSendersQueuedClaim :
    let s := { State.reset with claimQueue := [claimOf 5, claimOf 7] }
    s.ready ∧ (claimOf 7).items.length ≤ 4 ∧ (claimOf 7).sender ≠ s.straps.id ∧
      s.claimQueue = [claimOf 5] ++ claimOf 7 :: [] ∧ ∀ x ∈ [claimOf 5] ++ [], x.sender ≠ (claimOf 7).sender := by
  exact ⟨⟨rfl, rfl⟩, by decide⟩

theorem witness_ClaimFromNewSenderJoinsOrIsDropped :
    let s7 := { State.reset with claimQueue := ([1, 2, 3, 4, 5, 6, 7] : List StationId).map claimOf }
    let s8 : State := { State.reset with
      claimQueue := ([1, 2, 3, 4, 5, 6, 7, 8] : List StationId).map claimOf
      counters := { zeroCounters with inboxDrop := 65535 } }
    (s7.ready ∧ (∀ x ∈ s7.claimQueue, x.sender ≠ (claimOf 9).sender) ∧ s7.claimQueue.length < 8) ∧
      s8.ready ∧ (∀ x ∈ s8.claimQueue, x.sender ≠ (claimOf 9).sender) ∧ 8 ≤ s8.claimQueue.length ∧
      s8.counters.inboxDrop ≤ 65535 ∧ (claimOf 9).items.length ≤ 4 ∧ (claimOf 9).sender ≠ s8.straps.id := by
  exact ⟨⟨⟨rfl, rfl⟩, by decide⟩, ⟨rfl, rfl⟩, by decide⟩

theorem witness_OwnOrMalformedClaimsAreNotQueued :
    ((claimOf 0).items.length ≤ 4 ∧ (claimOf 0).sender = State.reset.straps.id) ∧
      4 < ({ claimOf 0 with items := List.replicate 5 ⟨.v0, false, 64, 0⟩ } : ClaimMsg).items.length := by decide

theorem witness_DrainRefreshesAndAgesEntries :
    ([claimOf 5, claimOf 7].Pairwise fun a b => a.sender ≠ b.sender) ∧
      (peers.Pairwise fun a b => a.id.toNat < b.id.toNat) := by decide

theorem witness_SilentEntriesExpire :
    let s : State := { State.reset with
      map := [{ id := 3, live := some 64, silence := 64, voices := [] },
        { id := 4, live := none, silence := 63, voices := [] }]
      counters := { zeroCounters with expire := 65535 } }
    s.ready ∧ s.counters.expire ≤ 65535 := ⟨⟨rfl, rfl⟩, by decide⟩

theorem witness_OutrankingFollowsItsTable :
    let c : PeerVoice := { voice := .v0, note := 64, age := 16, doubled := false }
    (({ c with doubled := true } : PeerVoice).doubled = true) ∧ (c.doubled = false ∧ 16 ≤ c.age ∧ 15 < 16) ∧
      (({ c with age := 15 } : PeerVoice).age < 16 ∧ 16 ≤ 16) ∧ (16 ≤ c.age ↔ 16 ≤ 16) := by decide

theorem witness_SceneIsSwitchedInByItsMode :
    let s : State := { State.reset with
      clock := 100021, counters := { zeroCounters with clamp := 65535, badFrame := 65535 } }
    s.ready ∧ s.counters.clamp ≤ 65535 ∧ s.counters.badFrame ≤ 65535 ∧
      (sceneOf (rawRule [1, 2, 3, 4]) 0 0).wellFormed = false ∧
      ((sceneOf (rawRule []) 3 0).wellFormed = true ∧ (sceneOf (rawRule []) 3 0).switchMode.toNat ≠ 1 ∧
        (sceneOf (rawRule []) 3 0).switchMode.toNat ≠ 2) ∧
      (sceneOf (rawRule []) 1 0).switchMode.toNat = 1 ∧
      ((sceneOf (rawRule []) 2 21).switchMode.toNat = 2 ∧
        (sceneOf (rawRule []) 2 21).delay.toNat ≤ (s.clock - 100000).toNat) ∧
      (s.clock - 100000).toNat < (sceneOf (rawRule []) 2 22).delay.toNat := by
  exact ⟨⟨rfl, rfl⟩, by decide⟩

theorem witness_DelayedSceneTakesEffectAtItsDuePoint :
    let p : PendingScene := { scene := defaultScene, condition := .atDelay 104800 }
    let s := owing [.sceneDuePoint] { present .waiting 104800 with scenes := { resetScenes with pending := some p } }
    s.resetN = true ∧ Owed.sceneDuePoint ∈ s.owed ∧ s.scenes.pending = some p ∧ p.condition = .atDelay s.clock := by
  decide

theorem witness_BypassOnWithdrawsTheVoices :
    (State.reset.ready ∧ State.reset.scenes.bypass = false) ∧
      ({ State.reset with scenes := { resetScenes with bypass := true } } : State).ready := ⟨⟨⟨rfl, rfl⟩, rfl⟩, rfl, rfl⟩

theorem witness_GrainIsTheTriangularWindow : 1 ≤ ({ mark0 with period := 1 } : Mark).period := by decide

/-- The shortest period of the first position's formula, with a first sample. -/
theorem witness_PositionsFollowTheirFormulas :
    16 ≤ ({ mark0 with period := 16 } : Mark).period ∧ grain0.samples = (0, 100) :: [] := by decide

theorem witness_EligibilityAndDistanceFollowTheRule : 2 ^ 27 - 1 < 2 ^ 27 := by decide

theorem witness_PlaceAddsTheScaledGrain : Cells.wf (0 : Int) [(0, -5), (2047, 7)] = true := by decide

/-- A mark is chosen, and with none eligible no mark is. -/
theorem witness_SourceChoiceTakesTheNearestEligibleMark :
    chooseMark [mark0, mark1] 900 5320 = some mark0 ∧ chooseMark [mark0] 431 5320 = none := by decide

theorem witness_DuePlacementPointAsksForThePlace :
    let s := fun c : Channel => owing [.placementPointDue .v0]
      { rendering { c with placementPoint := some 936 } with clock := 936 }
    let c := cycling .sounding .empty
    (∀ d ∈ [c, { c with current := none, next := .ready grain0 }, { c with current := none }],
      (s d).resetN = true ∧ Owed.placementPointDue .v0 ∈ (s d).owed ∧ ((s d).channel .v0).placementPoint = some 936 ∧
        0 ≤ ((s d).clock - 936).toInt ∧ ((s d).channel .v0).outputMark = some 16000) ∧
      ((s c).channel .v0).current = some grain0 ∧ ((936 : Pos) - firstPosition grain0 16000).toInt < 0 ∧
      chooseMark (s c).marks (s c).clock (16000 + 2048 - 12288) = none ∧
      ((936 : Pos) - ((((16000 : Pos16) + 2048 - 2048) >>> 4).setWidth 24 - 64)).toInt = 0 := by decide

/-- The clause without a mark to choose: one sample earlier the next placement point is not due yet. -/
theorem witness_SilentPlacementIsNotDueAgain :
    ((935 : Pos) - ((((16000 : Pos16) + 2048 - 2048) >>> 4).setWidth 24 - 64)).toInt < 0 := by decide

/-- No current grain, and next EMPTY with and without a mark to choose, or FETCHING. -/
theorem witness_SilentPlacementsRunUntilAPointAhead :
    let s := fun next : NextReg => { rendering { cycling .sounding next with current := none } with marks := [mark0] }
    (∀ next ∈ [NextReg.empty, .fetching mark1],
      ((s next).channel .v0).outputMark = some 16000 ∧ ((s next).channel .v0).current = none ∧
        ((s next).channel .v0).next = next) ∧
      (∀ g, NextReg.empty ≠ .ready g) ∧ (∀ g, NextReg.fetching mark1 ≠ .ready g) ∧
      chooseMark (s .empty).marks (s .empty).clock (16000 + 2048 - 12288) = some mark0 ∧
      chooseMark [] (s .empty).clock (16000 + 2048 - 12288) = none :=
  ⟨by decide, nofun, nofun, by decide, by decide⟩

/-- A READY grain whose first position, sample 1000, is due already. -/
theorem witness_PlacementPointIsReachedByItsCommand :
    let s := owing [.placementPointDue .v0] { rendering { cycling .sounding (.ready grain0) with
        current := none, placementPoint := some 936 } with
      clock := 1000, counters := { zeroCounters with drop := 65535 } }
    s.resetN = true ∧ Owed.placementPointDue .v0 ∈ s.owed ∧ (s.channel .v0).placementPoint = some 936 ∧
      0 ≤ (s.clock - 936).toInt ∧ (s.channel .v0).current = none ∧ (s.channel .v0).next = .ready grain0 ∧
      (s.channel .v0).outputMark = some 16000 ∧ 0 ≤ (s.clock - firstPosition grain0 16000).toInt ∧
      s.counters.drop ≤ 65535 := by decide

theorem witness_FetchCompletionFillsTheNextRegister :
    let s := fun f => busy (some { job := .fetch .v0 (some .v1) mark0, fate := f }) []
      (State.setChannel .v1 (cycling .sounding (.fetching mark0)) (rendering (cycling .sounding (.fetching mark0))))
    (s .live).ready ∧ (s .discarded).ready ∧ ((s .live).channel .v0).next = .fetching mark0 ∧
      ((s .live).channel .v1).next = .fetching mark0 ∧ Fate.discarded ≠ .live :=
  ⟨⟨rfl, rfl⟩, ⟨rfl, rfl⟩, rfl, rfl, nofun⟩

/-- oldest sample of mark0's grain: 233, overwritten by the arrival at 4329. -/
theorem witness_OverwrittenFetchIsWithdrawn :
    let s := fun r l => owing [.fetchWithdrawal .v0] (busy r l (State.setChannel .v1 (cycling .sounding (.fetching mark0))
      { rendering (cycling .sounding (.fetching mark0)) with clock := 4330 }))
    let waiting := s none [.fetch .v0 none mark0]
    let granted := s (some ⟨.fetch .v0 none mark0, .live⟩) []
    let merged := s none [.fetch .v0 (some .v1) mark0]
    let both := s (some ⟨.fetch .v0 (some .v1) mark0, .live⟩) []
    4096 ≤ (waiting.clock - 1 - oldestSample mark0).toInt ∧ Owed.fetchWithdrawal .v0 ∈ waiting.owed ∧
      waiting.resetN = true ∧ (waiting.channel .v0).next = .fetching mark0 ∧
      waiting.arbiter.list.filter (Job.fetches .v0 mark0) = [.fetch .v0 none mark0] ∧ waiting.arbiter.running = none ∧
      granted.arbiter.list.filter (Job.fetches .v0 mark0) = [] ∧
      merged.arbiter.list.filter (Job.fetches .v0 mark0) = [.fetch .v0 (some .v1) mark0] ∧
      (merged.channel .v1).next = .fetching mark0 ∧ merged.arbiter.running = none ∧
      both.arbiter.list.filter (Job.fetches .v0 mark0) = [] ∧
      both.arbiter.running = some { job := .fetch .v0 (some .v1) mark0, fate := .live } ∧ Voice.v0 ≠ .v1 ∧
      (both.channel .v1).next = .fetching mark0 := by decide

theorem witness_ReadyGrainIsPromotedAtTheCompletion :
    let s := fun marks : List Mark => { busy (some { job := place0, fate := .live }) []
      (rendering (cycling .sounding (.ready grain0))) with marks := marks }
    (s []).ready ∧ ((s []).channel .v0).cycleRunning = true ∧ ((s []).channel .v0).next = .ready grain0 ∧
      4096 = ((s []).voice .v0).postedStep.getD 4096 ∧
      (17600 : Pos16) = 16000 + BitVec.ofNat 28 (roundHalfUp (grain0.mark.period * 4096) 4096).toNat ∧
      ((s []).clock - firstPosition grain0 17600).toInt < 0 ∧
      ((s []).clock - (firstPosition grain0 17600 - 64)).toInt < 0 ∧
      chooseMark (s []).marks (s []).clock (17600 - 12288) = none ∧
      chooseMark [mark0] 900 (17600 - 12288) = some mark0 ∧
      chooseMark [mark1] 900 (17600 - 12288) = some mark1 ∧ mark1.pos ≠ grain0.mark.pos ∧
      (s [mark1]).arbiter.list.any (Job.mergesWith .v0 mark1) = false := by
  exact ⟨⟨rfl, rfl⟩, by decide +kernel⟩

theorem witness_PromotionWithoutAReadyGrainRepeats :
    let s := fun f => { busy (some { job := place0, fate := f }) [] (rendering (cycling .sounding (.fetching mark1))) with
      counters := { zeroCounters with repeats := 65535 } }
    (s .live).ready ∧ (s .dropped).ready ∧ ((s .live).channel .v0).current = some grain0 ∧
      ((s .live).channel .v0).next = .fetching mark1 ∧ ((s .live).channel .v0).stepInForce = some 4096 ∧
      ((s .live).channel .v0).outputMark = some 16000 ∧ (s .live).counters.repeats ≤ 65535 ∧
      ((s .live).clock - (firstPosition grain0 17600 - 64)).toInt < 0 := by
  exact ⟨⟨rfl, rfl⟩, ⟨rfl, rfl⟩, by decide⟩

theorem witness_WithdrawnPlaceChangesNothing :
    let s := fun f running => busy (some { job := place0, fate := f }) []
      (rendering { cycling .entering .empty with cycleRunning := running })
    (∀ f ∈ [Fate.discarded, .dropped],
      (s f false).arbiter.running = some { job := .place .v0 grain0 16000, fate := f }) ∧
      ((s .discarded true).ready ∧ ((s .discarded true).channel .v0).cycleRunning = true) ∧
      (s .dropped false).ready ∧ ((s .dropped false).channel .v0).cycleRunning = false :=
  ⟨by decide, ⟨⟨rfl, rfl⟩, rfl⟩, ⟨rfl, rfl⟩, rfl⟩

/-- The first PLACE of its cycle, granted before a hush: in the stopped cycle and in one that has been restarted since,
with no ramp start yet. -/
def overtaken (running : Bool) (state : VoiceState) : State :=
  busy (some { job := place0, fate := .addsOnly }) []
    (rendering { cycling state .empty with rampStart := none, cycleRunning := running })

theorem witness_OvertakenPlaceAddsItsGrain :
    (∀ s ∈ [overtaken false .leaving, overtaken true .entering],
      s.arbiter.running = some { job := .place .v0 grain0 16000, fate := .addsOnly } ∧
        (s.channel .v0).stepInForce = some 4096 ∧ (s.channel .v0).rampStart = none) ∧
      (overtaken false .leaving).ready ∧ (overtaken true .entering).ready := ⟨by decide, ⟨rfl, rfl⟩, rfl, rfl⟩

/-- R139 with R145: a cycle's first PLACE, overtaken by a hush, adds its grain at sample 1000 and sets the ramp start.
-/
theorem test_overtaken_first_place_sets_the_ramp_start :
    ∃ t, exec .placeCompletion (overtaken false .leaving) = .next t ∧ (t.channel .v0).rampStart = some 1000 ∧
      (t.channel .v0).overlap = [(1000, 100)] ∧ (t.channel .v0).placementPoint = none ∧
      (t.channel .v0).outputMark = some 16000 := by
  refine ⟨_, rfl, ?_⟩; decide

/-- Next READY, EMPTY and FETCHING; a mark to fetch, the current grain's own mark and no mark; and the new first
position not due, due at its placement point, and due itself. -/
theorem witness_AdvanceTakesItsStepsInOrder :
    let s := fun (next : NextReg) (clock : Pos) => { rendering (cycling .sounding next) with
      clock := clock, counters := { zeroCounters with repeats := 65535, drop := 65535 } }
    (∀ next ∈ [NextReg.ready grain0, .empty, .fetching mark1],
      ((s next 900).channel .v0).outputMark = some 16000 ∧ ((s next 900).channel .v0).stepInForce = some 4096 ∧
        4096 = ((s next 900).voice .v0).postedStep.getD 4096 ∧ (s next 900).counters.repeats ≤ 65535 ∧
        (s next 900).counters.drop ≤ 65535 ∧ ((s next 900).channel .v0).current = some grain0 ∧
        ((s next 900).channel .v0).next = next) ∧
      (17600 : Pos16) = 16000 + BitVec.ofNat 28 (roundHalfUp (grain0.mark.period * 4096) 4096).toNat ∧
      (∀ g, NextReg.empty ≠ .ready g) ∧ (∀ g, NextReg.fetching mark1 ≠ .ready g) ∧
      chooseMark [mark1] 900 (17600 - 12288) = some mark1 ∧ mark1.pos ≠ grain0.mark.pos ∧
      chooseMark [mark0] 900 (17600 - 12288) = some mark0 ∧ chooseMark [] 900 (17600 - 12288) = none ∧
      ((900 : Pos) - (firstPosition grain0 17600 - 64)).toInt < 0 ∧
      (0 ≤ ((1036 : Pos) - (firstPosition grain0 17600 - 64)).toInt ∧
        ((1036 : Pos) - firstPosition grain0 17600).toInt < 0) ∧
      0 ≤ ((1100 : Pos) - firstPosition grain0 17600).toInt :=
  ⟨by decide +kernel, by decide, nofun, nofun, by decide⟩

/-- A PLACE that completes, live or dropped, and a waiting one that is dropped. -/
theorem witness_CompletionsAndDropsAdvanceTheCycle :
    let s := fun f => busy (some { job := place0, fate := f }) [] (rendering (cycling .sounding .empty))
    let w := owing [.grainDrop .v0] (busy (some ⟨.analysis 768 1, .live⟩) [place0]
      { rendering (cycling .sounding .empty) with clock := 1000, counters := { zeroCounters with drop := 65535 } })
    (∀ f ∈ [Fate.live, .dropped],
      (s f).resetN = true ∧ ((s f).channel .v0).cycleRunning = true ∧ ((s f).channel .v0).stepInForce = some 4096 ∧
        (s f).owed = [] ∧ (s f).arbiter.running = some { job := .place .v0 grain0 16000, fate := f }) ∧
      w.resetN = true ∧ (w.channel .v0).cycleRunning = true ∧ (w.channel .v0).stepInForce = some 4096 ∧
      Owed.grainDrop .v0 ∈ w.owed ∧ 0 ≤ (w.clock - firstPosition grain0 16000).toInt ∧ w.counters.drop ≤ 65535 ∧
      w.arbiter.list.filter (Job.isPlaceOf .v0) = [place0] ∧
      (w.arbiter.running.map fun r => r.job.isPlaceOf .v0) = some false := by decide

theorem witness_LateGrainIsDropped :
    let s := fun r l => owing [.grainDrop .v0] (busy r l
      { rendering (cycling .sounding (.fetching mark1)) with
        clock := 1000, counters := { zeroCounters with drop := 65535, repeats := 65535 } })
    let granted := s (some ⟨place0, .live⟩) [.fetch .v0 none mark1]
    let waiting := s (some ⟨.analysis 768 1, .live⟩) [.fetch .v0 none mark1, place0]
    (s (some ⟨place0, .addsOnly⟩) []).arbiter.running = some { job := .place .v0 grain0 16000, fate := .addsOnly } ∧
    granted.resetN = true ∧ Owed.grainDrop .v0 ∈ granted.owed ∧ 0 ≤ (granted.clock - firstPosition grain0 16000).toInt ∧
      granted.counters.drop ≤ 65535 ∧ granted.counters.repeats ≤ 65535 ∧
      (∀ j ∈ granted.arbiter.list, j.isPlaceOf .v0 = false) ∧
      waiting.arbiter.list.filter (Job.isPlaceOf .v0) = [place0] ∧
      (waiting.arbiter.running.map fun r => r.job.isPlaceOf .v0) = some false ∧
      (waiting.clock - firstPosition grain0 17600).toInt < 0 ∧
      (waiting.clock - (firstPosition grain0 17600 - 64)).toInt < 0 := by decide

theorem witness_FullRampSounds :
    let s := owing [.enteringRampFull .v0] (rendering (cycling .entering .empty))
    s.resetN = true ∧ Owed.enteringRampFull .v0 ∈ s.owed ∧ (s.channel .v0).state = .entering ∧
      (s.channel .v0).ramp = 256 := by decide

theorem witness_RampOutStopsTheCycle :
    let s := owing [.cycleStop .v0] (busy (some ⟨place0, .live⟩)
      [.fetch .v0 (some .v1) mark0, .place .v1 grain0 16000] (rendering { cycling .leaving .empty with ramp := 0 }))
    s.resetN = true ∧ Owed.cycleStop .v0 ∈ s.owed ∧ (s.channel .v0).state = .leaving ∧ (s.channel .v0).ramp = 0 ∧
      ∀ o q m, Job.fetch o (some q) m ∈ s.arbiter.list → o ≠ q := by
  refine ⟨by decide, by decide, by decide, by decide, ?_⟩
  intro o q m h
  rcases List.mem_cons.mp h with h | h
  · cases h; decide
  · rcases List.mem_cons.mp h with h | h <;> cases h

/-- The merged FETCH runs, owned by the voice that stops or by its partner. -/
theorem witness_RampOutLeavesTheRunningFetchToThePartner :
    let s := fun (v : Voice) => owing [.cycleStop v] (busy (some ⟨.fetch .v0 (some .v1) mark0, .live⟩) []
      (State.setChannel v { cycling .leaving .empty with ramp := 0 } (present .waiting 900)))
    (∀ v ∈ [Voice.v0, .v1],
      (s v).resetN = true ∧ Owed.cycleStop v ∈ (s v).owed ∧ ((s v).channel v).state = .leaving ∧
        ((s v).channel v).ramp = 0 ∧ (s v).arbiter.list = [] ∧
        (s v).arbiter.running = some { job := .fetch .v0 (some .v1) mark0, fate := .live }) ∧ Voice.v0 ≠ .v1 := by
  decide

/-- A PARKED voice, and a LEAVING one whose cycle a hush has stopped at ramp count 40. -/
theorem witness_TargetStartsOrRestartsTheCycle :
    let s := rendering { resetChannel with state := .parked }
    let u := rendering { cycling .leaving .empty with
      cycleRunning := false, ramp := 40, overlap := [(5, 7)], placementPoint := none }
    (s.channel .v0).state = .parked ∧
      ((u.channel .v0).state = .leaving ∧ (u.channel .v0).cycleRunning = false ∧ 40 = (u.channel .v0).ramp ∧
        [(5, 7)] = (u.channel .v0).overlap) ∧
      chooseMark s.marks s.clock (s.clock - 640).sixteenths = none ∧
      chooseMark [mark0] u.clock (u.clock - 640).sixteenths = some mark0 := by decide

theorem witness_TargetMovesTheVoiceByItsTable :
    let st := fun v => ((rendering (cycling v .empty)).channel .v0).state
    st .off = .off ∧ st .entering = .entering ∧ st .sounding = .sounding ∧ st .gliding = .gliding ∧
      st .leaving = .leaving ∧ (cycling .leaving .empty).cycleRunning = true := by decide

/-- The partner's waiting FETCH of the same mark; one of another mark, and one that runs already, do not merge. -/
theorem witness_PairFetchesMerge :
    let s := busy (some ⟨.fetch .v1 none mark0, .live⟩) [.fetch .v1 none mark0] (rendering (cycling .sounding .empty))
    let u := busy s.arbiter.running [.fetch .v1 none mark1] s
    s.arbiter.list = [] ++ .fetch (Voice.partner .v0) none mark0 :: [] ∧
      (∀ j ∈ ([] : List Job) ++ [], j.isFetchFor (Voice.partner .v0) = false) ∧ mark1.pos ≠ mark0.pos ∧
      (∀ m', m'.pos = mark0.pos → Job.fetch (Voice.partner .v0) none m' ∉ u.arbiter.list) ∧
      u.arbiter.running ≠ none ∧ (busy none [] u).arbiter.running = none := by
  refine ⟨by decide, by decide, by decide, ?_, nofun, rfl⟩
  intro m' h hm
  rcases List.mem_cons.mp hm with e | e
  · cases e; exact absurd h (by decide)
  · cases e

theorem witness_StartBitInReadyBeginsAFrame : (receiving .ready).ready ∧ (receiving .ready).line.receiver = .ready :=
  ⟨⟨rfl, rfl⟩, rfl⟩

theorem witness_StartBitRestartsTheIdleTime :
    (receiving .gapWait).ready ∧ Receiver.gapWait ≠ .ready ∧ Receiver.gapWait ≠ .breaking := ⟨⟨rfl, rfl⟩, nofun, nofun⟩

/-- The 65th character, an unaddressed third character, and a length byte at its limit. -/
theorem witness_CharacterJoinsTheFrameOrSkips :
    let s := fun chars => receiving (.receiving chars 7 false)
    (∀ chars ∈ [[], [0x20], [0x20, 60], List.replicate 64 (0 : Byte)],
      (s chars).line.receiver = .receiving chars 7 false ∧ (s chars).counters.badFrame ≤ 65535) ∧
      (s []).ready ∧ 3 ≤ (List.replicate 64 (0 : Byte)).length ∧
      ∀ chars p ws, (receiving .skippingError).line.receiver ≠ .receiving chars p ws :=
  ⟨by decide, ⟨rfl, rfl⟩, by decide, nofun⟩

theorem witness_ReturnToMarkEndsTheSpace :
    (receiving .breaking).ready ∧ (receiving .breaking).line.receiver = .breaking ∧
      (receiving .gapWait).line.receiver = .gapWait ∧
      (receiving (.receiving [] 0 false)).line.receiver = .receiving [] 0 false ∧
      (receiving .breaking).counters.badFrame ≤ 65535 := ⟨⟨rfl, rfl⟩, rfl, rfl, rfl, by decide⟩

theorem witness_FrameBoundaryReadiesTheReceiver :
    (({ (receiving .gapWait).line with rx := .character [true] } : LineControl).rx ≠ .space) ∧
      ({ (receiving .gapWait).line with rx := .space } : LineControl).rx = .space ∧
      ({ (receiving (.receiving [] 0 false)).line with rx := .character [] } : LineControl).rx ≠ .mark ∧
      (receiving .breaking).line.receiver = .breaking ∧
      (receiving (.skippingGroup 5)).line.rx = .mark ∧ (receiving (.skippingGroup 5)).ready ∧
      (receiving (.skippingGroup 5)).line.receiver = .skippingGroup 5 ∧
      (receiving .skippingError).line.receiver = .skippingError ∧ isWhole [0x13] = false := by
  exact ⟨nofun, rfl, nofun, rfl, rfl, ⟨rfl, rfl⟩, rfl, rfl, by decide⟩

/-- One whole frame for each clause of the routing. -/
theorem witness_WholeFrameIsRoutedByItsKind :
    (∀ f ∈ [buildFrame 1 3 [64, 0], buildFrame 1 0 [64, 0], buildFrame 1 3 [64, 5], buildFrame 3 15 [0xF, 1],
        buildFrame 3 15 [0xF], buildFrame 4 15 [0, 1], buildFrame 5 15 [], buildFrame 2 15 [1]], isWhole f = true) ∧
      parseClaim 3 [64, 0] = some { sender := 3, live := 64, items := [] } ∧ parseClaim 3 [64, 5] = none ∧
      parseScene [1] = none ∧ (parseScene ([15, 3, 0, 0, 160, 8, 0, 0, 0, 0, 0, 0] ++ List.replicate 24 0)).isSome = true ∧
      isWhole (buildFrame 2 15 ([15, 3, 0, 0, 160, 8, 0, 0, 0, 0, 0, 0] ++ List.replicate 24 0)) = true := by
  decide +kernel

/-- An owed acceptance in the middle of the list, and an owed step at its head. -/
theorem witness_OwedAcceptanceIsTakenByItsCommand :
    let s := owing [.cycleStop .v0, .accept (.claim (claimOf 3)), .analysisTick] State.reset
    s.resetN = true ∧ Owed.accept (.claim (claimOf 3)) ∈ s.owed := ⟨rfl, by decide⟩

theorem witness_OwedStepsAreTakenFirst :
    let s := owing [.cycleStop .v0, .analysisTick] State.reset
    let u := owing [.analysisTick] State.reset
    (s.resetN = true ∧ s.owed = .cycleStop .v0 :: [.analysisTick] ∧
      ¬ (Owed.cycleStop .v0 = .analysisTick ∧ Owed.leaveWarming ∈ [Owed.analysisTick]) ∧
      ∃ t, exec (Owed.cycleStop .v0).command s = .next t) ∧
    (u.owed = .analysisTick :: [] ∧ ¬ (Owed.analysisTick = .analysisTick ∧ Owed.leaveWarming ∈ ([] : List Owed)) ∧
      ∃ t, exec Owed.analysisTick.command u = .next t) ∧
    Instr.settles (.sampleArrival 0) = true ∧ Owed.accept .bypassOn ∉ s.owed ∧ s.pending = [] :=
  ⟨⟨rfl, rfl, by decide, _, rfl⟩, ⟨rfl, by decide, _, rfl⟩, rfl, by decide, rfl⟩

theorem witness_SendStartBuildsTheFrameInHand :
    let l := fun tx => { (receiving .ready).line with
      transmitter := tx, claimSlot := some emptyRecord, reportSlot := some true }
    (({ l .deferring with rx := .character [], receiver := .receiving [] 0 false } : LineControl).rx ≠ .mark ∧
        ({ l .deferring with rx := .space } : LineControl).rx = .space ∧ (l .idle).transmitter = .idle ∧
        (l .sending).transmitter = .sending ∧ (l .deferring).rx = .mark) ∧
      (onLine (l .deferring)).ready ∧ (onLine (l .deferring)).line.receiver = .ready ∧ (l .backoff).transmitter = .backoff ∧
      (l .deferring).claimSlot = some emptyRecord ∧ (l .deferring).clash = false ∧
      ({ l .deferring with clash := true } : LineControl).clash = true ∧
      (receiving .ready).line.claimSlot = none ∧ (receiving .ready).line.reportSlot = none :=
  ⟨⟨nofun, rfl, rfl, rfl, rfl⟩, ⟨rfl, rfl⟩, rfl, rfl, rfl, rfl, rfl, rfl, rfl⟩

/-- GAP_WAIT and SKIPPING after a start bit, and a frame in reception at mark. -/
theorem witness_SendStartPassesTheBoundaryFirst :
    let l := fun r rx => { (receiving r).line with transmitter := .backoff, rx := rx }
    (onLine (l .gapWait (.character []))).ready ∧ (l .gapWait (.character [])).transmitter = .backoff ∧
      (l .gapWait (.character [])).rx ≠ .space ∧ (l (.skippingGroup 3) .mark).receiver = .skippingGroup 3 ∧
      (l .skippingError (.character [])).receiver = .skippingError ∧
      (l (.receiving [] 0 false) .mark).receiver = .receiving [] 0 false ∧ (l (.receiving [] 0 false) .mark).rx = .mark :=
  ⟨⟨rfl, rfl⟩, rfl, nofun, rfl, rfl, rfl, rfl⟩

theorem witness_MatchingEchoGoesOnOrSucceeds :
    let f := inHand 0 (.claim emptyRecord)
    let g := inHand 2 (.report true)
    (onLine (sendingLine f)).ready ∧ (onLine (sendingLine f)).line.transmitter = .sending ∧
      (onLine (sendingLine f)).line.frameInHand = some f ∧ f.chars[f.sent]? = some 0x10 ∧ f.sent + 1 < f.chars.length ∧
      g.chars[g.sent]? = some 0x00 ∧ g.sent + 1 = g.chars.length ∧ (inHand 2 (.claim emptyRecord)).sent + 1 = 3 :=
  ⟨⟨rfl, rfl⟩, rfl, rfl, by decide⟩

/-- The first collision of a slot, and the eighth. -/
theorem witness_MismatchCollides :
    let f := inHand 0 (.claim emptyRecord)
    let l := { sendingLine f with collisions := 7, collisionSlot := some .claim }
    let s := { onLine l with counters := { zeroCounters with collide := 65535, giveUp := 65535 } }
    (onLine (sendingLine f)).ready ∧ s.ready ∧ s.line.frameInHand = some f ∧ (some (0x11 : Byte) ≠ f.chars[f.sent]?) ∧
      s.counters.collide ≤ 65535 ∧ s.counters.giveUp ≤ 65535 ∧
      8 ≤ (if s.line.collisionSlot = some f.content.slot then s.line.collisions else 0) + 1 ∧
      (if (sendingLine f).collisionSlot = some f.content.slot then (sendingLine f).collisions else 0) + 1 < 8 :=
  ⟨⟨rfl, rfl⟩, ⟨rfl, rfl⟩, rfl, by decide⟩

theorem witness_BreakHushesTheStation :
    let f := inHand 0 (.report true)
    let s := { onLine { sendingLine f with collisions := 7, collisionSlot := some .report, reportSlot := some true } with
      counters := { zeroCounters with hush := 65535, collide := 65535, giveUp := 65535 } }
    (State.reset.ready ∧ State.reset.line.receiver ≠ .breaking ∧ State.reset.line.transmitter ≠ .sending) ∧
      s.ready ∧ s.line.receiver ≠ .breaking ∧ s.counters.hush ≤ 65535 ∧ s.counters.collide ≤ 65535 ∧
      s.counters.giveUp ≤ 65535 ∧ s.line.transmitter = .sending ∧ s.line.frameInHand = some f ∧
      8 ≤ (if s.line.collisionSlot = some f.content.slot then s.line.collisions else 0) + 1 :=
  ⟨⟨⟨rfl, rfl⟩, nofun, nofun⟩, ⟨rfl, rfl⟩, nofun, by decide⟩

/-- A PLACE running at the break, live, dropped before, or overtaken by an earlier one. -/
theorem witness_BreakFindsAPlaceRunning :
    let r := fun fate : Fate => ({ job := .place .v0 grain0 0, fate := fate } : Running)
    ∀ fate ∈ [Fate.live, .dropped, .addsOnly, .discarded],
      (busy (some (r fate)) [] State.reset).arbiter.running = some (r fate) ∧
        (busy (some (r fate)) [] State.reset).resetN = true ∧ (busy (some (r fate)) [] State.reset).owed = [] ∧
        (busy (some (r fate)) [] State.reset).line.receiver ≠ .breaking ∧
        (busy (some (r fate)) [] State.reset).line.transmitter ≠ .sending := by decide

/-- The loss timer absent, one step short of its end, and at it. -/
theorem witness_BitTimeTakesTheEdgesThenTheLossTimer :
    let s := fun n => { present .waiting 0 with audio := { (present .waiting 0).audio with lossTimer := n } }
    (let u := { s (some 23976) with audioIn := [[.rise true]] };
      u.ready ∧ u.pending = [] ∧ u.audioIn ≠ []) ∧
    (∀ n ∈ [none, some 23975, some 23976], (s n).audio.lossTimer = n ∧ (s n).pending = []) ∧ (s none).ready ∧
      23975 + (if (s none).straps.rate = 0 then 24 else 96) < 24000 ∧
      24000 ≤ 23976 + (if (s none).straps.rate = 0 then 24 else 96) :=
  ⟨⟨⟨rfl, rfl⟩, rfl, nofun⟩, by decide, ⟨rfl, rfl⟩, by decide⟩

theorem witness_BitTimeTakesTheLineLevel :
    ({ State.reset with lineIn := [false, true] } : State).lineIn = false :: [true] ∧ State.reset.lineIn = [] ∧
      (onLine (sendingLine (inHand 0 (.report false)))).line.transmitter = .sending ∧
      State.reset.line.transmitter ≠ .sending ∧ State.reset.line.rx = .mark ∧
      ({ State.reset.line with rx := .space } : LineControl).rx = .space ∧
      ({ State.reset.line with rx := .character [true] } : LineControl).rx = .character [true] :=
  ⟨rfl, rfl, rfl, nofun, rfl, rfl, rfl⟩

/-- The detector with eight and nine levels heard, and the 40th bit time of a space. -/
theorem witness_LineBitIsHeardCountedAndReceived :
    let l := sendingLine (inHand 0 (.report false))
    let s := fun n => onLine { l with echo := List.replicate n false, rx := .space, spaceRun := 39 }
    (s 8).ready ∧ (s 8).line.spaceRun ≤ 40 ∧ (s 8).line.transmitter = .sending ∧ (s 8).line.echo.length < 9 ∧
      (s 9).line.echo.length = 9 ∧ State.reset.line.transmitter ≠ .sending ∧ min 40 (39 + 1) = 40 ∧
      (State.receiveBit false (s 8)).owed = [] := ⟨⟨rfl, rfl⟩, by decide, rfl, by decide, rfl, nofun, rfl, rfl⟩

theorem witness_ReceiverSamplesEachLevel :
    let l := fun rx : LineRx => { State.reset.line with rx := rx }
    (onLine (l .space)).ready ∧ (l .mark).rx = .mark ∧ (l .space).rx = .space ∧
      ((l (.character (List.replicate 7 true))).rx = .character (List.replicate 7 true) ∧
        (List.replicate 7 true).length < 8) ∧ (List.replicate 8 true).length = 8 :=
  ⟨⟨rfl, rfl⟩, rfl, rfl, ⟨rfl, by decide⟩, rfl⟩

/-- Idle times 10, 11 and 74; a gap that is reached and one that is not. -/
theorem witness_IdleBitTimeBringsTheBoundaryThenTheGap :
    let s := fun n => onLine { (receiving .ready).line with transmitter := .deferring, lastSender := 15, idle := n }
    (s 11).ready ∧ (s 11).line.rx = .mark ∧ (s 11).line.idle = 11 ∧ (s 74).line.idle ≤ 74 ∧ (10 : Nat) ≠ 11 ∧
      rotatingGap (s 11).straps.id (s 11).line.lastSender = 12 ∧ (s 11).line.receiver = .ready ∧
      rotatingGap (s 11).straps.id 0 = 42 := by
  exact ⟨⟨rfl, rfl⟩, by decide⟩

theorem witness_TenBitTimesReceiveACharacter :
    (receiving .ready).ready ∧ (receiving .ready).line.rx = .mark ∧ (receiving .ready).line.spaceRun = 0 ∧
      (receiving .ready).line.receiver ≠ .breaking ∧ (receiving .ready).line.transmitter ≠ .sending :=
  ⟨⟨rfl, rfl⟩, rfl, rfl, nofun, nofun⟩

theorem witness_ClaimFrameCarriesItsRecord :
    let r : ClaimRecord := { live := some 93, entries := [⟨.v0, 33, 255, true⟩, ⟨.v3, 93, 0, false⟩] }
    ((∀ n, r.live = some n → noteSound n) ∧ (r.entries.Pairwise fun a b => a.voice.index < b.voice.index) ∧
      ∀ e ∈ r.entries, noteSound e.note ∧ e.age ≤ 255) ∧ (3 : StationId) ≠ 4 := by
  refine ⟨⟨?_, by decide, ?_⟩, by decide⟩
  · intro n h; cases h; exact ⟨by decide, by decide⟩
  · intro e h
    rcases List.mem_cons.mp h with rfl | h
    · exact ⟨⟨by decide, by decide⟩, by decide⟩
    · rcases List.mem_cons.mp h with rfl | h
      · exact ⟨⟨by decide, by decide⟩, by decide⟩
      · cases h

theorem witness_ClaimItemsStandInTheirPlaces :
    ([(0x83, 64, 0), (0, 0, 255), (1, 33, 1), (2, 93, 2)] : List (Byte × Byte × Byte)).length ≤ 4 := by decide

/-- R178: length 1, N = 5, and a length that is not 2 + 3 × N are malformed; four claims are not. -/
theorem test_claim_well_formed_test :
    parseClaim 3 [64] = none ∧ parseClaim 3 (64 :: 5 :: List.replicate 15 0) = none ∧
      parseClaim 3 [64, 1, 0, 67] = none ∧ (parseClaim 3 (64 :: 4 :: List.replicate 12 0)).isSome = true ∧
      (claimPayload { live := none, entries := [⟨.v2, 67, 30, true⟩] }) = [0, 1, 0x82, 67, 30] := by decide

theorem witness_WholeFramesHaveTheirLengthAndCheck :
    ([0x13] : List Byte).length < 2 ∧ isWhole [0x13, 0x00, 0x00, 0x00] = false ∧ isWhole (buildFrame 1 3 []) = true ∧
      isWhole (buildFrame 1 3 [] ++ [0]) = false := by decide +kernel

theorem witness_BuiltFramesAreWhole : 15 < 16 ∧ (List.replicate 60 (0 : Byte)).length ≤ 60 := by decide

/-- The shortest and the longest SCENE payload. -/
theorem witness_SceneWalkTakesTheWholePayload :
    let rule : Byte → List Byte := fun k => [1, 2, 100, 0, 0, k] ++ List.replicate k.toNat 4
    let payload : Byte → List Byte := fun k =>
      [15, 3, 0, 0, 160, 8, 0, 0, 0, 0, 0, 0] ++ rule k ++ rule k ++ rule k ++ rule k
    ((payload 0).length = 36 ∧ (parseScene (payload 0)).isSome = true) ∧
      (payload 3).length = 48 ∧ (parseScene (payload 3)).isSome = true := by decide

theorem witness_EveryScenePayloadIsParsed :
    ∀ v : Voice, ((sceneOf (rawRule [1, 2, 3]) 0 0).rules.get v).alternates.length ≤ 3 := by
  intro v; cases v <;> decide

theorem witness_SearchSegmentsRunInOrder :
    let k : Search := { bestLag := 24, bestD := 0, dmean := 0 }
    ({ gated with segment := 2 } : Analysis).search = none ∧
      ({ gated with segment := 3, search := some k } : Analysis).segment = 3 + 0 ∧
      ({ gated with segment := 6, search := some k } : Analysis).segment = 3 + 3 ∧
      ({ gated with segment := 7, search := some k } : Analysis).search = some k := ⟨rfl, rfl, rfl, rfl⟩

theorem witness_ConfidenceThenRangeDecideTheReason :
    let npt := periodTable 0 0
    (204 : Nat) < 255 ∧ 204 ≤ 204 ∧ periodToPitch npt 435 = none ∧ periodToPitch npt 2290 = some (64, 31) := by
  decide +kernel

theorem witness_PassesTakeEachVoiceInTurn :
    let s := withRules defaultRule (present .waiting 0)
    s.enabled .v0 = true ∧ (s.rule .v0).mode = .off ∧ ((passesOf clearedVoice []).voices.get .v0).target = none ∧
      s.enabled .v1 = false ∧
      ((passesOf { clearedVoice with target := some 64 } []).voices.get .v0).target ≠ none := by decide

theorem witness_PinsFollowTheState :
    let f : OutFrame := { position := 0, slots := [1, -1, 0, 0, 0, 0, 0, 0], driven := 255 }
    let s := { onLine (sendingLine (inHand 0 (.report false))) with audio := { resetAudio with out := some f } }
    s.line.transmitter = .sending ∧ s.line.frameInHand = some (inHand 0 (.report false)) ∧ s.audio.out = some f ∧
      (f.slots[7]? = some 0 ∧ f.driven = 32 * 7 + 31) ∧
      (f.slots.length = 8 ∧ 256 ≤ ({ f with driven := 256 } : OutFrame).driven) ∧
      State.reset.audio.out = none ∧
      State.reset.line.transmitter ≠ .sending ∧
      (inHand 0 (.report false)).chars[(inHand 0 (.report false)).sent]? = some 0x10 := by
  exact ⟨rfl, rfl, rfl, ⟨rfl, rfl⟩, by decide, rfl, nofun, rfl⟩

theorem witness_CountersNeverFall :
    (∃ t, exec (.echoCheck none) State.reset = .next t) ∧ Instr.echoCheck none ≠ .resetAssert ∧
      ∀ p m, Instr.echoCheck none ≠ .resetRelease p m := ⟨⟨_, rfl⟩, nofun, nofun⟩

theorem witness_StrapsClockAndClashFlagMoveAtTheirEvents :
    (∀ p m, Instr.sampleArrival 5 ≠ .resetRelease p m) ∧ (∃ t, exec (.sampleArrival 5) (present .waiting 0) = .next t) ∧
      (∃ x, Instr.sampleArrival 5 = .sampleArrival x) ∧ (∀ x, Instr.frameSync ≠ .sampleArrival x) ∧
      ({ State.reset.line with clash := true } : LineControl).clash = true :=
  ⟨nofun, ⟨_, rfl⟩, ⟨5, rfl⟩, nofun, rfl⟩

/-- A station whose mark list, cover end and analysis in flight meet the invariant, the oldest mark at the limit. -/
def tracking : State :=
  { present (.analysing open0) 6000 with
    marks := [{ pos := 59120, period := 384, voiced := true }, { pos := 59504, period := 14336, voiced := true }]
    coverEnd := some 61440 }

theorem witness_MarkListStaysOrderedAndBounded : tracking.marksOrdered ∧ tracking.analysisPlaced := by
  refine ⟨⟨nofun, by decide, by decide, by decide, ?_⟩, ?_, ?_, by decide⟩
  · intro m hm
    exact ⟨61440, rfl, by revert m; decide⟩
  · intro c h; cases h; decide
  · intro a h; cases h
    refine ⟨by decide, .inl (by decide), ?_, nofun⟩
    intro c h; cases h; decide

/-- A station in which a PLACE runs and the pair's merged FETCH and a segment wait. -/
def owning : State :=
  busy (some { job := place0, fate := .live }) [.fetch .v0 (some .v1) mark0, .analysis 4096 1]
    { present (.analysing open0) 4100 with
      channels := ⟨cycling .sounding (.fetching mark0), cycling .entering (.fetching mark0), resetChannel, resetChannel⟩ }

theorem witness_JobsStayWithinTheirLimits :
    owning.arbiter.withinLimits ∧ owning.jobsOwned ∧ owning.trackerFollowsAudio := by
  have hj : owning.arbiter.awaited = [.fetch .v0 (some .v1) mark0, .analysis 4096 1, place0] := by decide
  refine ⟨⟨?_, by decide, ?_, nofun⟩, ⟨?_, ?_, ?_, ?_⟩, nofun, nofun⟩
  · intro v; cases v <;> decide
  · intro o q m h; rw [hj] at h; simp [place0] at h; obtain ⟨rfl, rfl, rfl⟩ := h; decide
  · intro v g m h; rw [hj] at h; simp [place0] at h; obtain ⟨rfl, rfl, rfl⟩ := h; decide
  · intro j h v hv o q m e; rw [hj] at h; subst e; simp [place0] at h; obtain ⟨rfl, rfl, rfl⟩ := h
    cases v
    · exact ⟨⟨mark0, rfl, rfl⟩, rfl⟩
    · exact ⟨⟨mark0, rfl, rfl⟩, rfl⟩
    · exact absurd hv (by decide)
    · exact absurd hv (by decide)
  · intro t k h; rw [hj] at h; simp [place0] at h; obtain ⟨rfl, rfl⟩ := h; exact ⟨open0, rfl, rfl⟩
  · intro v; cases v <;> decide

/-- A station with four enabled voices, two of them with targets, a peer, a queued claim and a held note. -/
def playing : State :=
  let sounding := { cycling .sounding .empty with overlap := [(5, -7), (2047, 3)] }
  { withRules (ruleOf .semitone 7) (present .waiting 900) with
    straps := { State.reset.straps with nv := 3, id := 6 }
    ring := [(0, 5), (4095, 7)]
    follower := .held 64 2330
    claimQueue := [claimOf 5]
    map := [{ id := 3, live := some 93, silence := 63, voices := [⟨.v0, 33, 255, false⟩] }]
    alloc := { resetAlloc with
      voices := ⟨{ clearedVoice with target := some 33, postedStep := some 8192 },
        { clearedVoice with target := some 93, glide := some { origin := 2048, length := 2, position := 1 } },
        clearedVoice, clearedVoice⟩ }
    channels := ⟨sounding, sounding, { resetChannel with state := .parked },
      { cycling .leaving .empty with leaveRate := 4 }⟩
    line := { State.reset.line with idle := 74, spaceRun := 40, collisions := 7 }
    counters := { zeroCounters with late := 65535 } }

theorem witness_StoresStayCanonical : playing.storesCanonical := by
  unfold State.storesCanonical State.ringCanonical State.overlapsCanonical Cells.within
  refine ⟨⟨by decide, by decide⟩, ?_⟩
  intro v; cases v <;> exact ⟨by decide, by decide⟩

theorem witness_CountsStayInTheirRanges : playing.countersBounded ∧ playing.rampsBounded ∧ playing.lineBounded := by
  refine ⟨?_, ?_, by unfold State.lineBounded; decide⟩
  · intro k; cases k <;> decide
  · intro v; cases v <;> decide

/-- The fresh count, the loss timer, the bits taken and the output frame at their ends, the decision counts and an age
at theirs, and a record with notes and ages at theirs. -/
def brimming : State :=
  { playing with
    audio :=
      { state := .present, syncHigh := true, inputReg := 0, inputBits := some 24, lossTimer := some 23999, fresh := 4096,
        out := some { position := 0, slots := frameSlots 0 silentMixer, driven := 256 } }
    alloc := { playing.alloc with
      voices := playing.alloc.voices.set .v0 { clearedVoice with target := some 33, age := 255 }
      record :=
        { live := some 93
          entries :=
            [{ voice := .v0, note := 33, age := 255, doubled := true },
              { voice := .v3, note := 93, age := 0, doubled := false }] } }
    line := { playing.line with claimSlot := some emptyRecord } }

theorem witness_AudioDecisionsAndRecordsStayBounded :
    brimming.audioBounded ∧ brimming.decisionsBounded ∧ brimming.notesInTable ∧ brimming.recordsSound := by
  refine ⟨⟨by decide, ?_, ?_, ?_⟩, ⟨by decide, by decide, ?_⟩, ⟨nofun, ?_, nofun, ?_⟩, ⟨?_, by decide, ?_⟩, ?_⟩
  · intro n h; cases h; decide
  · intro n h; cases h; decide
  · intro f h; cases h; decide
  · intro v; cases v <;> decide
  · intro n h; cases h; exact ⟨by decide, by decide⟩
  · intro v n h; cases v <;> cases h <;> exact ⟨by decide, by decide⟩
  · intro n h; cases h; exact ⟨by decide, by decide⟩
  · unfold noteSound; decide
  · intro r h; cases h; exact ⟨nofun, by decide, nofun⟩

theorem witness_StageStaysKeyedBySender : playing.stageKnown := by
  unfold State.stageKnown State.queueKeyed State.mapKeyed PeerEntry.sound noteSound
  refine ⟨⟨by decide, by decide, by decide⟩, by decide, ?_⟩
  intro e h
  rcases List.mem_cons.mp h with rfl | h
  · exact ⟨by decide, by intro n hn; cases hn; exact ⟨by decide, by decide⟩, by decide, by decide, by decide, by decide⟩
  · cases h

theorem witness_StepsInForceStayWithinAnOctave : playing.stepsInRange := by
  unfold State.stepsInRange stepSound
  intro v; cases v <;> refine ⟨?_, ?_, ?_⟩ <;> intro k h <;> cases h <;> decide

theorem witness_VoicesWithTargetsAreTheSoundingOnes : playing.voicesAgree := by
  refine ⟨?_, ?_, ?_, ?_⟩ <;> intro v <;> cases v <;> decide

theorem witness_TargetsStayDistinctNotesInTheTable :
    playing.disabledUntargeted ∧ playing.targetsDistinct ∧ playing.notesInTable := by
  refine ⟨?_, ?_, nofun, ?_, nofun, ?_⟩
  · intro v; cases v <;> decide
  · intro v w n hv hw; cases v <;> cases hv <;> cases w <;> first | rfl | cases hw
  · intro n h; cases h; exact ⟨by decide, by decide⟩
  · intro v n h; cases v <;> cases h <;> exact ⟨by decide, by decide⟩

theorem witness_NoNoteMarkOrTargetBeforeWarming :
    (present .warming 0).trackerFollowsAudio ∧ (present .warming 0).tracker.quiet = true ∧
      (present .warming 0).restsUntilWarm := by
  refine ⟨⟨nofun, nofun⟩, rfl, fun _ => ⟨rfl, rfl, rfl, ?_⟩⟩
  intro v; cases v <;> rfl

/-- A step answers a next state with the queue empty and with a command in front. -/
theorem witness_step_answers_next :
    (∃ t, step playing = .next t) ∧ ∃ t, step { playing with pending := [.sampleArrival 1] } = .next t :=
  ⟨⟨_, rfl⟩, _, rfl⟩

end Sys2Proof.Tests
end

/-! PROOF. The pitch tracker's analysis (chapter 02): the difference and the comparison of lags, the refined period, and
what each segment does to the analysis. -/

namespace Sys2Proof.PitchTracking

open Sys2Proof.Machine

/-! ### The window and the difference (R19, R22, R23) -/

/-- The terms of D where the window is a tabulated function long enough for the lag. -/
theorem difference_map_range (x : Nat → Int) {n lag : Nat} (h : 1024 + lag ≤ n) :
    difference ((List.range n).map x) lag = ((List.range 1024).map fun i => (x i - x (i + lag)).natAbs).sum := by
  have hterms : List.zipWith (fun a b => (a - b).natAbs) (((List.range n).map x).take 1024)
      ((((List.range n).map x).drop lag).take 1024) = (List.range 1024).map fun i => (x i - x (i + lag)).natAbs := by
    apply List.ext_getElem
    · simp only [List.length_zipWith, List.length_take, List.length_drop, List.length_map, List.length_range]
      omega
    · intro i _ _
      simp [Nat.add_comm]
  rw [difference, hterms]

theorem difference_analysisWindow (ring : Cells Sample) (tick : Pos) {lag : Nat} (h : lag ≤ 896) :
    let x := fun i : Nat => (readRing ring (tick - 2048 + BitVec.ofNat 24 i)).toInt
    difference (analysisWindow ring tick) lag = ((List.range 1024).map fun i => (x i - x (i + lag)).natAbs).sum :=
  difference_map_range _ (n := 2048) (by omega)

theorem windowLevel_analysisWindow (ring : Cells Sample) (tick : Pos) :
    windowLevel (analysisWindow ring tick) = ((List.range 2048).map fun i =>
      (readRing ring (tick - 2048 + BitVec.ofNat 24 i)).toInt.natAbs).sum / 2048 := by
  unfold windowLevel analysisWindow
  rw [List.map_map]
  rfl

/-! ### The comparison of lags: the smaller D, and the smaller lag of a tie (R23) -/

/-- Lag and D of a match no worse than another. -/
def NoWorse (a b : Nat × Nat) : Prop := a.2 < b.2 ∨ (a.2 = b.2 ∧ a.1 ≤ b.1)

theorem NoWorse.refl (a : Nat × Nat) : NoWorse a a := .inr ⟨rfl, le_rfl⟩

theorem NoWorse.trans {a b c : Nat × Nat} (hab : NoWorse a b) (hbc : NoWorse b c) : NoWorse a c := by
  unfold NoWorse at *; omega

theorem betterLag_eq_or (a b : Nat × Nat) : betterLag a b = a ∨ betterLag a b = b := by
  unfold betterLag; split
  · exact .inr rfl
  · exact .inl rfl

theorem betterLag_noWorse (a b : Nat × Nat) : NoWorse (betterLag a b) a ∧ NoWorse (betterLag a b) b := by
  unfold betterLag NoWorse; split <;> omega

/-- The fold that every search runs ends on one of the matches it has seen. -/
theorem foldl_betterLag_mem (best : Nat × Nat) (l : List (Nat × Nat)) : l.foldl betterLag best ∈ best :: l := by
  induction l generalizing best with
  | nil => exact List.mem_singleton_self best
  | cons a l ih =>
    rw [List.foldl_cons]
    rcases List.mem_cons.1 (ih (betterLag best a)) with h | h
    · rw [h]
      rcases betterLag_eq_or best a with e | e <;> simp [e]
    · simp [h]

/-- The fold that every search runs ends on a match no worse than any it has seen. -/
theorem foldl_betterLag_noWorse (best : Nat × Nat) (l : List (Nat × Nat)) :
    ∀ m ∈ best :: l, NoWorse (l.foldl betterLag best) m := by
  induction l generalizing best with
  | nil =>
    intro m hm
    rw [List.mem_singleton.1 hm]
    exact .refl best
  | cons a l ih =>
    have hbetter := ih (betterLag best a) _ List.mem_cons_self
    obtain ⟨hbest, ha⟩ := betterLag_noWorse best a
    intro m hm
    rcases List.mem_cons.1 hm with rfl | hm
    · exact hbetter.trans hbest
    rcases List.mem_cons.1 hm with rfl | hm
    · exact hbetter.trans ha
    · exact ih _ m (List.mem_cons_of_mem _ hm)

/-! ### The coarse search (R24) -/

/-- The matches that the coarse search compares. -/
def coarseMatches (w : List Int) : List (Nat × Nat) := coarseLags.map fun lag => (lag, difference w lag)

theorem mem_coarseMatches {w : List Int} {m : Nat × Nat} :
    m ∈ coarseMatches w ↔ ∃ i : Fin 55, m = (24 + 16 * i.val, difference w (24 + 16 * i.val)) := by
  simp [coarseMatches, coarseLags, Fin.exists_iff, eq_comm]

/-- The first of the 55 matches is the fold's start, so the fold sees the 55 alone. -/
theorem coarseMatches_start (w : List Int) {m : Nat × Nat} :
    m ∈ (24, difference w 24) :: coarseMatches w ↔ m ∈ coarseMatches w := by
  rw [List.mem_cons, or_iff_right_of_imp]
  rintro rfl
  exact mem_coarseMatches.2 ⟨0, rfl⟩

theorem coarseSearch_best (w : List Int) : ((coarseSearch w).bestLag, (coarseSearch w).bestD) =
    (coarseMatches w).foldl betterLag (24, difference w 24) := by
  simp only [coarseSearch, coarseMatches]

theorem coarseSearch_dmean (w : List Int) :
    (coarseSearch w).dmean = ((List.range 55).map fun i => difference w (24 + 16 * i)).sum / 55 := by
  simp only [coarseSearch, coarseLags, List.map_map]
  rfl

theorem coarseSearch_mem (w : List Int) : ∃ i : Fin 55, (coarseSearch w).bestLag = 24 + 16 * i.val ∧
    (coarseSearch w).bestD = difference w (24 + 16 * i.val) := by
  have hmem := foldl_betterLag_mem (24, difference w 24) (coarseMatches w)
  rw [coarseMatches_start, ← coarseSearch_best, mem_coarseMatches] at hmem
  simpa [Prod.ext_iff] using hmem

theorem coarseSearch_noWorse (w : List Int) (i : Fin 55) :
    NoWorse ((coarseSearch w).bestLag, (coarseSearch w).bestD) (24 + 16 * i.val, difference w (24 + 16 * i.val)) := by
  rw [coarseSearch_best]
  exact foldl_betterLag_noWorse _ _ _ ((coarseMatches_start w).2 (mem_coarseMatches.2 ⟨i, rfl⟩))

theorem coarseSearch_finds_least : Clause.CoarseSearchFindsTheLeastDifference := by
  intro w
  obtain ⟨i, hlag, hD⟩ := coarseSearch_mem w
  exact ⟨⟨i, hlag⟩, by rw [hD, hlag], fun i => by simpa only [NoWorse] using coarseSearch_noWorse w i,
    coarseSearch_dmean w⟩

/-! ### A refinement (R25) -/

theorem lagInRange_iff {l : Int} : lagInRange l = true ↔ 24 ≤ l ∧ l ≤ 896 := decide_eq_true_iff

/-- The matches that a refinement with this step evaluates. -/
def neighbourMatches (w : List Int) (step lag : Nat) : List (Nat × Nat) :=
  ([(lag : Int) - step, (lag : Int) + step].filter lagInRange).map fun l => (l.toNat, difference w l.toNat)

theorem refine_eq_foldl (w : List Int) (step : Nat) (best : Nat × Nat) :
    refine w step best = (neighbourMatches w step best.1).foldl betterLag best := by
  simp only [refine, neighbourMatches, List.foldl_map]

theorem mem_neighbourMatches {w : List Int} {step lag : Nat} {m : Nat × Nat} :
    m ∈ neighbourMatches w step lag ↔
      24 ≤ m.1 ∧ m.1 ≤ 896 ∧ (m.1 + step = lag ∨ m.1 = lag + step) ∧ m.2 = difference w m.1 := by
  simp only [neighbourMatches, List.mem_map, List.mem_filter, List.mem_pair, lagInRange_iff]
  constructor
  · rintro ⟨l, ⟨hl, hlow, hhigh⟩, rfl⟩
    refine ⟨?_, ?_, ?_, rfl⟩ <;> simp only <;> omega
  · rintro ⟨hlow, hhigh, hl, hD⟩
    exact ⟨m.1, ⟨by omega, by omega, by omega⟩, Prod.ext (Int.toNat_natCast _) (by simpa using hD.symm)⟩

theorem refine_takes_least : Clause.RefinementTakesTheLeastNeighbour := by
  intro w step lag d hlow hhigh hd
  have hmem := foldl_betterLag_mem (lag, d) (neighbourMatches w step lag)
  have hle := foldl_betterLag_noWorse (lag, d) (neighbourMatches w step lag)
  rw [← refine_eq_foldl w step (lag, d)] at hmem hle
  have hleast : ∀ l, 24 ≤ l → l ≤ 896 → (l = lag ∨ l + step = lag ∨ l = lag + step) →
      NoWorse (refine w step (lag, d)) (l, difference w l) := by
    rintro l hl hl' (rfl | h)
    · exact hd ▸ hle _ List.mem_cons_self
    · exact hle _ (List.mem_cons_of_mem _ (mem_neighbourMatches.2 ⟨hl, hl', h, rfl⟩))
  rcases List.mem_cons.1 hmem with hstay | hmove
  · rw [hstay] at hleast ⊢
    exact ⟨hlow, hhigh, hd, .inl rfl, hleast⟩
  · obtain ⟨h1, h2, h3, h4⟩ := mem_neighbourMatches.1 hmove
    exact ⟨h1, h2, h4, .inr h3, hleast⟩

/-! ### The segments in their order (R21) -/

theorem runSegment_level (npt : List Nat) (w : List Int) {a : Analysis} (h : a.segment = 1) :
    runSegment npt w a = levelSegment w a := by
  simp [runSegment, h]

theorem runSegment_coarse (npt : List Nat) (w : List Int) {a : Analysis} (h : a.segment = 2) (hs : a.search = none) :
    runSegment npt w a = .goesOn { a with segment := 3, search := some (coarseSearch w) } := by
  simp [runSegment, h, hs]

theorem runSegment_refine (npt : List Nat) (w : List Int) {a : Analysis} {k : Search} (hlow : 2 ≤ a.segment)
    (hhigh : a.segment ≤ 6) (hs : a.search = some k) : runSegment npt w a =
      .goesOn (a.withBest k (refine w (refineStep a.segment) (k.bestLag, k.bestD))) := by
  simp [runSegment, show ¬ a.segment ≤ 1 by omega, hs, hhigh]

theorem runSegment_guard (npt : List Nat) (w : List Int) {a : Analysis} {k : Search} (h : a.segment = 7)
    (hs : a.search = some k) : runSegment npt w a = .goesOn (a.withBest k (octaveGuard w (k.bestLag, k.bestD))) := by
  simp [runSegment, h, hs]

theorem runSegment_final (npt : List Nat) (w : List Int) {a : Analysis} {k : Search} (h : a.segment = 8)
    (hs : a.search = some k) : runSegment npt w a = finalSegment npt w a k := by
  simp [runSegment, h, hs]

/-- The refinements' steps are 8, 4, 2 and 1. -/
theorem refineStep_eq (i : Fin 4) : refineStep (3 + i.val) = 8 / 2 ^ i.val := by
  revert i; decide

theorem levelGate_ends_quiet : Clause.LevelGateEndsQuietWindows := by
  intro npt ring a h
  rw [runSegment_level npt _ h, levelSegment, windowLevel_analysisWindow]

theorem searchSegments_run_in_order : Clause.SearchSegmentsRunInOrder := by
  intro npt w a
  refine ⟨runSegment_coarse npt w, fun k i h hs => ?_⟩
  rw [runSegment_refine npt w (by omega) (by omega) hs, h, refineStep_eq, Analysis.withBest, h,
    show 3 + i.val + 1 = 4 + i.val by omega]

/-- Settles O12: the level gate and the difference from the window's samples, the coarse search and the refinements from
the one fold that takes the better of two lags. -/
theorem searchFindsTheBestLag : Obligations.SearchFindsTheBestLag :=
  ⟨levelGate_ends_quiet, fun ring tick _ h => difference_analysisWindow ring tick h, coarseSearch_finds_least,
    refine_takes_least, searchSegments_run_in_order⟩

/-! ### The octave guard (R26) -/

theorem octaveGuard_triesHalf : Clause.OctaveGuardTriesHalfTheLag := by
  intro npt w a k h hs
  rw [runSegment_guard npt w h hs, Analysis.withBest, h]
  rfl

/-! ### The refined period (R27) -/

/-- Rounding a quotient is the floor of the quotient plus a half. -/
theorem roundHalfUp_eq_floor (n : Int) {d : Nat} (hd : 0 < d) : roundHalfUp n d = ⌊(n : ℚ) / d + 1 / 2⌋ := by
  have hq : (n : ℚ) / d + 1 / 2 = ((2 * n + d : Int) : ℚ) / ((2 * d : Nat) : ℚ) := by
    push_cast
    field_simp
  rw [hq, Rat.floor_intCast_div_natCast, roundHalfUp]
  push_cast
  rfl

theorem floor_intCast_add_half (z : Int) : ⌊(z : ℚ) + 1 / 2⌋ = z := by
  rw [Int.floor_intCast_add]
  norm_num

/-- R27's den: twice the second difference of D at the lag. -/
def parabolaDen (w : List Int) (lag : Nat) : Int :=
  2 * ((difference w (lag - 1) : Int) - 2 * difference w lag + difference w (lag + 1))

/-- R27's D- - D+. -/
def parabolaNum (w : List Int) (lag : Nat) : Int := (difference w (lag - 1) : Int) - difference w (lag + 1)

/-- R27's δ is 0: the lag lies at an end of the range, or the parabola does not open upward. -/
abbrev OffsetVanishes (w : List Int) (lag : Nat) : Prop := lag = 24 ∨ lag = 896 ∨ parabolaDen w lag ≤ 0

/-- R27's δ. -/
def parabolaOffset (w : List Int) (lag : Nat) : ℚ :=
  if OffsetVanishes w lag then 0 else max (-1 / 2) (min (1 / 2) ((parabolaNum w lag : ℚ) / parabolaDen w lag))

theorem parabolaOffset_mem (w : List Int) (lag : Nat) :
    -1 / 2 ≤ parabolaOffset w lag ∧ parabolaOffset w lag ≤ 1 / 2 := by
  unfold parabolaOffset
  split
  · norm_num
  · exact ⟨le_max_left _ _, max_le (by norm_num) (min_le_left _ _)⟩

theorem parabolaOffset_of_vanishes {w : List Int} {lag : Nat} (h : OffsetVanishes w lag) :
    parabolaOffset w lag = 0 := if_pos h

theorem refinedPeriod_of_vanishes {w : List Int} {lag : Nat} (h : OffsetVanishes w lag) :
    refinedPeriod w lag = 16 * lag := by
  unfold refinedPeriod
  split
  · rfl
  · next hends => exact if_pos ((or_assoc.2 h).resolve_left hends)

section OpensUpward

variable {w : List Int} {lag : Nat} (h : ¬ OffsetVanishes w lag)
include h

theorem parabolaDen_pos : 0 < parabolaDen w lag := by
  unfold OffsetVanishes at h; omega

/-- The clamp of R27, decided on whole numbers. -/
theorem parabolaOffset_eq : parabolaOffset w lag =
    if parabolaDen w lag < 2 * parabolaNum w lag then 1 / 2
    else if 2 * parabolaNum w lag < -parabolaDen w lag then -1 / 2
    else (parabolaNum w lag : ℚ) / parabolaDen w lag := by
  have hden : (0 : ℚ) < parabolaDen w lag := by exact_mod_cast parabolaDen_pos h
  rw [parabolaOffset, if_neg h]
  split_ifs with habove hbelow
  · have : (1 / 2 : ℚ) ≤ parabolaNum w lag / parabolaDen w lag := by
      rw [le_div_iff₀ hden]
      have : (parabolaDen w lag : ℚ) < 2 * parabolaNum w lag := by exact_mod_cast habove
      linarith
    rw [min_eq_left this]
    norm_num
  · have : (parabolaNum w lag : ℚ) / parabolaDen w lag ≤ -1 / 2 := by
      rw [div_le_iff₀ hden]
      have : (2 * parabolaNum w lag : ℚ) < -parabolaDen w lag := by exact_mod_cast hbelow
      linarith
    exact max_eq_left (min_le_of_right_le this)
  · have hhigh : (parabolaNum w lag : ℚ) / parabolaDen w lag ≤ 1 / 2 := by
      rw [div_le_iff₀ hden]
      have : (2 * parabolaNum w lag : ℚ) ≤ parabolaDen w lag := by exact_mod_cast not_lt.1 habove
      linarith
    have hlow : -1 / 2 ≤ (parabolaNum w lag : ℚ) / parabolaDen w lag := by
      rw [le_div_iff₀ hden]
      have : (-parabolaDen w lag : ℚ) ≤ 2 * parabolaNum w lag := by exact_mod_cast not_lt.1 hbelow
      linarith
    rw [min_eq_right hhigh, max_eq_right hlow]

theorem refinedPeriod_eq : refinedPeriod w lag =
    if parabolaDen w lag < 2 * parabolaNum w lag then 16 * lag + 8
    else if 2 * parabolaNum w lag < -parabolaDen w lag then 16 * lag - 8
    else (roundHalfUp (16 * lag * parabolaDen w lag + 16 * parabolaNum w lag) (parabolaDen w lag).toNat).toNat := by
  have hends : ¬ (lag = Config.minLag ∨ lag = Config.maxLag) := fun hends => h (or_assoc.1 (.inl hends))
  rw [refinedPeriod, if_neg hends]
  exact if_neg (parabolaDen_pos h).not_ge

/-- Rounding once on whole numbers is R27's floor. -/
theorem roundHalfUp_parabola :
    roundHalfUp (16 * lag * parabolaDen w lag + 16 * parabolaNum w lag) (parabolaDen w lag).toNat =
      ⌊16 * ((lag : ℚ) + parabolaNum w lag / parabolaDen w lag) + 1 / 2⌋ := by
  have hden := parabolaDen_pos h
  have hcast : (((parabolaDen w lag).toNat : Nat) : ℚ) = parabolaDen w lag := by
    exact_mod_cast Int.toNat_of_nonneg hden.le
  have hne : (parabolaDen w lag : ℚ) ≠ 0 := by exact_mod_cast hden.ne'
  rw [roundHalfUp_eq_floor _ (by omega), hcast]
  congr 2
  push_cast
  field_simp

end OpensUpward

theorem refinedPeriod_eq_floor (w : List Int) {lag : Nat} (hlag : 24 ≤ lag) :
    (refinedPeriod w lag : Int) = ⌊16 * ((lag : ℚ) + parabolaOffset w lag) + 1 / 2⌋ := by
  by_cases h : OffsetVanishes w lag
  · rw [parabolaOffset_of_vanishes h, refinedPeriod_of_vanishes h, ← floor_intCast_add_half (16 * lag : Nat)]
    push_cast
    rw [add_zero]
  have hlag' : (24 : ℚ) ≤ lag := by exact_mod_cast hlag
  have hnonneg : 0 ≤ ⌊16 * ((lag : ℚ) + parabolaOffset w lag) + 1 / 2⌋ :=
    Int.floor_nonneg.2 (by linarith [(parabolaOffset_mem w lag).1])
  rw [parabolaOffset_eq h] at hnonneg ⊢
  rw [refinedPeriod_eq h]
  split_ifs at hnonneg ⊢ with habove hbelow
  · rw [← floor_intCast_add_half (16 * lag + 8 : Nat)]
    congr 1
    push_cast
    ring
  · rw [← floor_intCast_add_half (16 * lag - 8 : Nat)]
    congr 1
    push_cast [show 8 ≤ 16 * lag by omega]
    ring
  · rw [roundHalfUp_parabola h, Int.toNat_of_nonneg hnonneg]

/-- The clamp keeps the refined period within half a sample of the lag. -/
theorem refinedPeriod_near (w : List Int) {lag : Nat} (hlag : 24 ≤ lag) :
    16 * lag ≤ refinedPeriod w lag + 8 ∧ refinedPeriod w lag ≤ 16 * lag + 8 := by
  obtain ⟨hlow, hhigh⟩ := parabolaOffset_mem w lag
  have hfloor := refinedPeriod_eq_floor w hlag
  have hbelow : (16 * lag - 8 : Int) ≤ refinedPeriod w lag := by
    rw [hfloor, Int.le_floor]
    push_cast
    linarith
  have habove : (refinedPeriod w lag : Int) < 16 * lag + 9 := by
    rw [hfloor, Int.floor_lt]
    push_cast
    linarith
  omega

/-- The ends 384 and 14336 are met at the ends of the lag's range, where δ is 0. -/
theorem refinedPeriod_in_range (w : List Int) {lag : Nat} (hlow : 24 ≤ lag) (hhigh : lag ≤ 896) :
    384 ≤ refinedPeriod w lag ∧ refinedPeriod w lag ≤ 14336 := by
  by_cases hends : lag = 24 ∨ lag = 896
  · rw [refinedPeriod_of_vanishes (or_assoc.1 (.inl hends))]
    omega
  · have := refinedPeriod_near w hlow
    omega

theorem parabolaOffset_eq_stated (w : List Int) (lag : Nat) :
    let below : ℚ := difference w (lag - 1)
    let above : ℚ := difference w (lag + 1)
    let den : ℚ := 2 * (below - 2 * difference w lag + above)
    parabolaOffset w lag =
      if lag = 24 ∨ lag = 896 ∨ den ≤ 0 then 0 else max (-1 / 2) (min (1 / 2) ((below - above) / den)) := by
  intro below above den
  have hden : ((parabolaDen w lag : Int) : ℚ) = den := by simp [parabolaDen, den, below, above]
  have hnum : ((parabolaNum w lag : Int) : ℚ) = below - above := by simp [parabolaNum, below, above]
  rw [parabolaOffset, ← hden, ← hnum]
  simp only [OffsetVanishes, Int.cast_nonpos]

theorem refinedPeriod_is_lowest_point : Clause.PeriodIsTheParabolasLowestPoint := by
  intro w lag hlow hhigh below above den offset
  obtain ⟨hbelow, habove⟩ := refinedPeriod_near w hlow
  have hoffset : parabolaOffset w lag = offset := parabolaOffset_eq_stated w lag
  exact ⟨hoffset ▸ refinedPeriod_eq_floor w hlow, hbelow, habove, refinedPeriod_in_range w hlow hhigh⟩

/-! ### The confidence and the reason (R28) -/

/-- The clamp of R28 stands at its lower end alone, where the quotient passes 255. -/
theorem confidence_eq (d dmean : Nat) :
    confidence d dmean = if dmean = 0 then 0 else 255 - min 255 (255 * d / dmean) := by
  unfold confidence clampInt
  generalize 255 * d / dmean = q
  split_ifs <;> omega

section Grade

variable {npt : List Nat} {threshold conf period : Nat}

theorem gradeMatch_unsure (h : conf < threshold) : gradeMatch npt threshold conf period = .unsure := if_pos h

theorem gradeMatch_outOfRange (h : threshold ≤ conf) (hp : periodToPitch npt period = none) :
    gradeMatch npt threshold conf period = .outOfRange := by
  rw [gradeMatch, if_neg h.not_gt, hp]

theorem gradeMatch_voiced {note : Nat} {cents : Int} (h : threshold ≤ conf)
    (hp : periodToPitch npt period = some (note, cents)) :
    gradeMatch npt threshold conf period = .voiced period note cents := by
  rw [gradeMatch, if_neg h.not_gt, hp]

end Grade

theorem finalSegment_grades : Clause.ConfidenceThenRangeDecideTheReason := by
  intro npt w a k h hs conf p
  have hconf : confidence k.bestD k.dmean = conf := confidence_eq _ _
  refine ⟨_, runSegment_final npt w h hs, rfl, rfl, hconf, ?_⟩
  rw [hconf]
  exact ⟨gradeMatch_unsure, gradeMatch_outOfRange, fun _ _ => gradeMatch_voiced⟩

/-- Settles O13: the octave guard by its definition, the period as the floor of the rounded quotient, and the reason by
the two tests in their order. -/
theorem finalSegmentsGradeTheMatch : Obligations.FinalSegmentsGradeTheMatch :=
  ⟨octaveGuard_triesHalf, refinedPeriod_is_lowest_point, finalSegment_grades⟩

end Sys2Proof.PitchTracking

/-! PROOF. The period table and the conversion of a period to a note (chapter 03, sections 3.1 and 3.2): a bisection
finds each entry, the twelfth powers order the entries, and the order makes the interval of a period unique. -/

namespace Sys2Proof.PeriodTable

open Sys2Proof.Machine

/-! ### The bisection -/

/-- The bisection keeps p true at its lower end and false at its upper end, and ends when they are neighbours. -/
theorem greatest_crosses {p : Nat → Bool} {bits acc : Nat} (hlow : p acc = true) (hhigh : p (acc + 2 ^ bits) = false) :
    p (greatest p bits acc) = true ∧ p (greatest p bits acc + 1) = false := by
  induction bits generalizing acc with
  | zero => exact ⟨hlow, hhigh⟩
  | succ bits ih =>
    rw [greatest]
    split
    · next hmid => exact ih hmid (by rwa [Nat.add_assoc, ← Nat.two_mul, ← Nat.pow_succ'])
    · next hmid => exact ih hlow (eq_false_of_ne_true hmid)

/-! ### The entries as nearest integers (R40) -/

theorem periodAtLeast_iff {aref rate i m : Nat} : periodAtLeast aref rate (33 + i) m = true ↔
    (2 * m - 1) ^ 12 * aref ^ 12 * 2 ^ i ≤ (32 * rate) ^ 12 * 2 ^ 36 := by
  rw [periodAtLeast, decide_eq_true_iff, Nat.add_sub_cancel_left]

theorem periodAtLeast_eq_false_iff {aref rate i m : Nat} : periodAtLeast aref rate (33 + i) m = false ↔
    (32 * rate) ^ 12 * 2 ^ 36 < (2 * m - 1) ^ 12 * aref ^ 12 * 2 ^ i := by
  rw [← Bool.not_eq_true, periodAtLeast_iff, not_le]

/-- An entry is the nearest integer where the 14 bits of the bisection hold it. -/
theorem notePeriod_nearest {aref rate : Nat} (i : Nat)
    (hbits : (32 * rate) ^ 12 * 2 ^ 36 < (2 * 2 ^ 14 - 1) ^ 12 * aref ^ 12) :
    (2 * notePeriod aref rate (33 + i) - 1) ^ 12 * aref ^ 12 * 2 ^ i ≤ (32 * rate) ^ 12 * 2 ^ 36 ∧
      (32 * rate) ^ 12 * 2 ^ 36 < (2 * notePeriod aref rate (33 + i) + 1) ^ 12 * aref ^ 12 * 2 ^ i := by
  have hlow : periodAtLeast aref rate (33 + i) 0 = true := periodAtLeast_iff.2 (by simp)
  have hhigh : periodAtLeast aref rate (33 + i) (0 + 2 ^ 14) = false := by
    rw [periodAtLeast_eq_false_iff, Nat.zero_add]
    exact hbits.trans_le (Nat.le_mul_of_pos_right _ (by positivity))
  obtain ⟨hle, hlt⟩ := greatest_crosses hlow hhigh
  rw [periodAtLeast_iff] at hle
  rw [periodAtLeast_eq_false_iff, Nat.mul_add_one, Nat.add_sub_assoc one_le_two] at hlt
  exact ⟨hle, hlt⟩

/-- The 14 bits hold every entry, even the one for the lowest Aref at the highest rate. -/
theorem bisection_holds_every_period (tune : BitVec 2) (fs : BitVec 1) :
    (32 * sampleRate fs) ^ 12 * 2 ^ 36 < (2 * 2 ^ 14 - 1) ^ 12 * arefHz tune ^ 12 := by
  revert tune fs; decide

theorem nptEntry_periodTable (tune : BitVec 2) (fs : BitVec 1) {i : Nat} (hi : i ≤ 60) :
    nptEntry (periodTable tune fs) (33 + i) = notePeriod (arefHz tune) (sampleRate fs) (33 + i) := by
  have hlen : i < ((List.range 61).map fun i => notePeriod (arefHz tune) (sampleRate fs) (33 + i)).length := by
    rw [List.length_map, List.length_range]
    omega
  rw [nptEntry, periodTable, Nat.add_sub_cancel_left, List.getD_eq_getElem _ _ hlen, List.getElem_map,
    List.getElem_range]

theorem nptEntry_nearest (tune : BitVec 2) (fs : BitVec 1) {i : Nat} (hi : i ≤ 60) :
    let e := nptEntry (periodTable tune fs) (33 + i)
    (2 * e - 1) ^ 12 * arefHz tune ^ 12 * 2 ^ i ≤ (32 * sampleRate fs) ^ 12 * 2 ^ 36 ∧
      (32 * sampleRate fs) ^ 12 * 2 ^ 36 < (2 * e + 1) ^ 12 * arefHz tune ^ 12 * 2 ^ i := by
  rw [nptEntry_periodTable tune fs hi]
  exact notePeriod_nearest i (bisection_holds_every_period tune fs)

theorem periodTable_nearest : Clause.PeriodTableIsTheNearestInteger :=
  fun tune fs n => nptEntry_nearest tune fs (Nat.le_of_lt_succ n.isLt)

/-! ### The order of the entries (R41) -/

theorem nptEntry_antitone (tune : BitVec 2) (fs : BitVec 1) {m n : Nat} (hm : 33 ≤ m) (hmn : m ≤ n) (hn : n ≤ 93) :
    nptEntry (periodTable tune fs) n ≤ nptEntry (periodTable tune fs) m := by
  obtain ⟨i, rfl⟩ := Nat.exists_eq_add_of_le hm
  obtain ⟨j, rfl⟩ := Nat.exists_eq_add_of_le (hm.trans hmn)
  obtain ⟨-, hupper⟩ := nptEntry_nearest tune fs (i := i) (by omega)
  obtain ⟨hlower, -⟩ := nptEntry_nearest tune fs (i := j) (by omega)
  by_contra! hlt
  have hodd : 2 * nptEntry (periodTable tune fs) (33 + i) + 1 ≤ 2 * nptEntry (periodTable tune fs) (33 + j) - 1 := by
    omega
  refine absurd (hlower.trans_lt hupper) (not_lt.2 ?_)
  gcongr
  · norm_num
  · omega

/-- The eight listed rows of ends and A4 entries. -/
theorem nptEntry_listed (tune : BitVec 2) (fs : BitVec 1) :
    (nptEntry (periodTable tune fs) 33, nptEntry (periodTable tune fs) 69, nptEntry (periodTable tune fs) 93) =
      if fs = 0 then
        if tune = 3 then (14027, 1753, 438) else if tune = 0 then (13964, 1745, 436)
        else if tune = 1 then (13900, 1738, 434) else (13838, 1730, 432)
      else if tune = 3 then (12888, 1611, 403) else if tune = 0 then (12829, 1604, 401)
        else if tune = 1 then (12771, 1596, 399) else (12714, 1589, 397) := by
  revert tune fs; decide +kernel

theorem nptEntry_ends_in_range (tune : BitVec 2) (fs : BitVec 1) :
    384 ≤ nptEntry (periodTable tune fs) 93 ∧ nptEntry (periodTable tune fs) 33 ≤ 14336 := by
  have hlisted := nptEntry_listed tune fs
  split_ifs at hlisted <;> (simp only [Prod.mk.injEq] at hlisted; omega)

theorem nptEntry_in_range (tune : BitVec 2) (fs : BitVec 1) {i : Nat} (hi : i ≤ 60) :
    384 ≤ nptEntry (periodTable tune fs) (33 + i) ∧ nptEntry (periodTable tune fs) (33 + i) ≤ 14336 := by
  obtain ⟨hlow, hhigh⟩ := nptEntry_ends_in_range tune fs
  exact ⟨hlow.trans (nptEntry_antitone tune fs (by omega) (by omega) le_rfl),
    (nptEntry_antitone tune fs le_rfl (by omega) (by omega)).trans hhigh⟩

/-- 19/18 is less than a semitone's ratio 2^(1/12). -/
theorem pow_twelve_le_double {x y : Nat} (h : 18 * x ≤ 19 * y) : x ^ 12 ≤ 2 * y ^ 12 := by
  have hpow : (18 * x) ^ 12 ≤ (19 * y) ^ 12 := Nat.pow_le_pow_left h 12
  rw [Nat.mul_pow, Nat.mul_pow] at hpow
  omega

/-- Entries of 384 or more no further apart than 20 are less than a semitone apart, which the nearest integers of two
neighbouring notes are not. -/
theorem nptEntry_falls (tune : BitVec 2) (fs : BitVec 1) {i : Nat} (hi : i < 60) :
    nptEntry (periodTable tune fs) (33 + (i + 1)) + 20 < nptEntry (periodTable tune fs) (33 + i) := by
  obtain ⟨-, hupper⟩ := nptEntry_nearest tune fs hi.le
  obtain ⟨hlower, -⟩ := nptEntry_nearest tune fs hi
  obtain ⟨hlow, -⟩ := nptEntry_in_range tune fs hi
  by_contra! hnear
  generalize nptEntry (periodTable tune fs) (33 + i) = e at hupper hnear
  generalize nptEntry (periodTable tune fs) (33 + (i + 1)) = e' at hlower hlow hnear
  have hsemitone : (2 * e + 1) ^ 12 ≤ 2 * (2 * e' - 1) ^ 12 := pow_twelve_le_double (by omega)
  refine absurd (hlower.trans_lt hupper) (not_lt.2 ?_)
  calc (2 * e + 1) ^ 12 * arefHz tune ^ 12 * 2 ^ i
      ≤ 2 * (2 * e' - 1) ^ 12 * arefHz tune ^ 12 * 2 ^ i := by gcongr
    _ = (2 * e' - 1) ^ 12 * arefHz tune ^ 12 * 2 ^ (i + 1) := by ring

theorem periodTable_falls_in_range : Clause.PeriodTableFallsWithinTheTrackerRange :=
  ⟨fun tune fs n => nptEntry_falls tune fs n.isLt,
    fun tune fs n => nptEntry_in_range tune fs (Nat.le_of_lt_succ n.isLt), nptEntry_listed⟩

/-- Settles O4: the bisection makes each entry the nearest integer, and the bounds by twelfth powers order the entries;
only the listed rows are computed. -/
theorem periodTableIsExact : Obligations.PeriodTableIsExact := ⟨periodTable_nearest, periodTable_falls_in_range⟩

/-! ### The conversion of a period (R42, R43) -/

/-- A rounded quotient lies between the whole numbers that bound the quotient. -/
theorem roundHalfUp_mem {n lo hi : Int} {d : Nat} (hd : 0 < d) (hlo : lo * d ≤ n) (hhi : n ≤ hi * d) :
    lo ≤ roundHalfUp n d ∧ roundHalfUp n d ≤ hi := by
  unfold roundHalfUp
  constructor
  · rw [Int.le_ediv_iff_mul_le (by omega)]
    linarith
  · rw [← Int.lt_add_one_iff, Int.ediv_lt_iff_lt_mul (by omega)]
    linarith

/-- The cents of an interval's period lie in 0..100. -/
theorem cents_mem {high low p : Nat} (hlow : low < p) (hhigh : p ≤ high) :
    0 ≤ roundHalfUp (100 * ((high : Int) - p)) (high - low) ∧
      roundHalfUp (100 * ((high : Int) - p)) (high - low) ≤ 100 :=
  roundHalfUp_mem (by omega) (by omega) (by omega)

section Conversion

variable {tune : BitVec 2} {fs : BitVec 1} {p n : Nat} (hn : 33 ≤ n) (hn' : n ≤ 92)
  (hlow : nptEntry (periodTable tune fs) (n + 1) < p) (hhigh : p ≤ nptEntry (periodTable tune fs) n)
include hn hn' hlow hhigh

/-- The intervals of lower notes end at or above the entry of n, so none of them holds the period. -/
theorem findInterval_eq_some : findInterval (periodTable tune fs) p = some n := by
  obtain ⟨i, rfl⟩ := Nat.exists_eq_add_of_le' hn
  rw [findInterval, List.find?_map, Option.map_eq_some_iff]
  refine ⟨i, List.find?_range_eq_some.2 ⟨?_, List.mem_range.2 (by omega), fun j hj => ?_⟩, rfl⟩
  · simp [hlow, hhigh]
  · have habove : p ≤ nptEntry (periodTable tune fs) (j + 33 + 1) :=
      hhigh.trans (nptEntry_antitone tune fs (by omega) (by omega) (by omega))
    simp [habove]

theorem periodToPitch_interval : periodToPitch (periodTable tune fs) p =
    let c := roundHalfUp (100 * ((nptEntry (periodTable tune fs) n : Int) - p))
      (nptEntry (periodTable tune fs) n - nptEntry (periodTable tune fs) (n + 1))
    if c ≤ 50 then some (n, c) else some (n + 1, c - 100) := by
  have htop : p ≤ nptEntry (periodTable tune fs) 33 := hhigh.trans (nptEntry_antitone tune fs le_rfl hn (by omega))
  have hbottom : nptEntry (periodTable tune fs) 93 < p :=
    (nptEntry_antitone tune fs (by omega) (by omega) le_rfl).trans_lt hlow
  rw [periodToPitch, if_neg htop.not_gt, if_neg hbottom.not_gt, if_neg hbottom.ne',
    findInterval_eq_some hn hn' hlow hhigh]

end Conversion

theorem periodToPitch_outside {npt : List Nat} {p : Nat} (h : nptEntry npt 33 < p ∨ p < nptEntry npt 93) :
    periodToPitch npt p = none := by
  unfold periodToPitch
  split_ifs with habove hbelow
  · rfl
  · rfl
  all_goals exact absurd h (not_or.2 ⟨habove, hbelow⟩)

theorem periodToPitch_lowest (tune : BitVec 2) (fs : BitVec 1) :
    periodToPitch (periodTable tune fs) (nptEntry (periodTable tune fs) 93) = some (93, 0) := by
  have hends := nptEntry_antitone tune fs (m := 33) (n := 93) le_rfl (by omega) le_rfl
  rw [periodToPitch, if_neg hends.not_gt, if_neg (lt_irrefl _), if_pos rfl]

/-- Settles O14: the falling table gives a period one interval at most, and rounding keeps its cents in 0..100. -/
theorem periodConvertsToNoteAndCents : Obligations.PeriodConvertsToNoteAndCents := by
  intro tune fs p npt
  refine ⟨periodToPitch_outside, fun n hn hn' hlow hhigh => ?_, ?_⟩
  · exact ⟨periodToPitch_interval hn hn' hlow hhigh, cents_mem hlow hhigh⟩
  · rintro rfl
    exact periodToPitch_lowest tune fs

end Sys2Proof.PeriodTable

/-! PROOF. The note follower's step (chapter 03, section 3.3): a voiced result moves it by R46's table, and the three
unvoiced results by R47's. -/

namespace Sys2Proof.NoteFollower

open Sys2Proof.Machine

theorem followerStep_voiced (p x : Nat) (cents : Int) (f : Follower) :
    followerStep (.voiced p x cents) f = followVoiced x p f := rfl

theorem followerStep_unvoiced {r : Reason} (h : r = .quiet ∨ r = .unsure ∨ r = .outOfRange) (f : Follower) :
    followerStep r f = followUnvoiced f := by
  rcases h with rfl | rfl | rfl <;> rfl

theorem follower_steps_on_voiced : Clause.FollowerStepsOnVoicedResults := by
  intro x p note k q cents h d
  simp only [followerStep_voiced]
  exact ⟨rfl, rfl, rfl, rfl, rfl⟩

theorem follower_lapses_on_unvoiced : Clause.FollowerLapsesOnUnvoicedResults := by
  intro r c h d q hr
  simp only [followerStep_unvoiced hr]
  exact ⟨rfl, rfl, rfl, rfl, rfl, rfl, rfl⟩

/-- Settles O16: a result is voiced or unvoiced, and each table's row is the follower's own case. -/
theorem followerStepsByItsTables : Obligations.FollowerStepsByItsTables :=
  ⟨follower_steps_on_voiced, follower_lapses_on_unvoiced⟩

end Sys2Proof.NoteFollower

/-! PROOF. Candidate notes (chapter 05, sections 5.2 to 5.4): the snap takes the first least distance, the two folds
bring a candidate near the held note and into the table, and a rule's candidates stand in its order. -/

namespace Sys2Proof.CandidateNotes

open Sys2Proof.Machine

/-! ### The fold by distance (R77) -/

theorem distanceFold_of_near {h t : Int} (k : Nat) (hlow : h - 12 ≤ t) (hhigh : t ≤ h + 12) :
    distanceFold h k t = t := by
  cases k with
  | zero => rfl
  | succ k => rw [distanceFold, if_neg (by omega), if_neg (by omega)]

/-- From above, the first octave within 12 still lies above the held note. -/
theorem distanceFold_of_above {h t : Int} {k : Nat} (habove : h + 12 < t) (hfuel : t - h ≤ k) :
    h < distanceFold h k t ∧ distanceFold h k t ≤ h + 12 := by
  induction k generalizing t with
  | zero => omega
  | succ k ih =>
    rw [distanceFold, if_pos (by omega)]
    by_cases hnear : t - 12 ≤ h + 12
    · rw [distanceFold_of_near k (by omega) hnear]
      omega
    · exact ih (by omega) (by omega)

/-- From below, the first octave within 12 still lies below the held note. -/
theorem distanceFold_of_below {h t : Int} {k : Nat} (hbelow : t < h - 12) (hfuel : h - t ≤ k) :
    h - 12 ≤ distanceFold h k t ∧ distanceFold h k t < h := by
  induction k generalizing t with
  | zero => omega
  | succ k ih =>
    rw [distanceFold, if_neg (by omega), if_pos (by omega)]
    by_cases hnear : h - 12 ≤ t + 12
    · rw [distanceFold_of_near k hnear (by omega)]
      omega
    · exact ih (by omega) (by omega)

theorem distanceFold_keeps_pitchClass (h : Int) (k : Nat) (t : Int) : (distanceFold h k t - t) % 12 = 0 := by
  induction k generalizing t with
  | zero => simp [distanceFold]
  | succ k ih =>
    rw [distanceFold]
    split_ifs
    · have := ih (t - 12)
      omega
    · have := ih (t + 12)
      omega
    · simp

theorem distanceFold_mem (h t : Int) :
    h - 12 ≤ distanceFold h (t - h).natAbs t ∧ distanceFold h (t - h).natAbs t ≤ h + 12 := by
  by_cases habove : h + 12 < t
  · have := distanceFold_of_above habove (k := (t - h).natAbs) (by omega)
    omega
  by_cases hbelow : t < h - 12
  · have := distanceFold_of_below hbelow (k := (t - h).natAbs) (by omega)
    omega
  rw [distanceFold_of_near _ (by omega) (by omega)]
  omega

/-! ### Both folds (R78) -/

theorem foldCandidate_eq (h t : Int) : foldCandidate h t =
    let d := distanceFold h (t - h).natAbs t
    if d < 33 then d + 12 else if 93 < d then d - 12 else d := rfl

/-- A candidate below the table lies below the held note and one above it above, so the fold by range keeps it within 12
of the held note. -/
theorem foldCandidate_mem {h : Int} (hlow : 33 ≤ h) (hhigh : h ≤ 93) (t : Int) :
    33 ≤ foldCandidate h t ∧ foldCandidate h t ≤ 93 ∧ h - 12 ≤ foldCandidate h t ∧ foldCandidate h t ≤ h + 12 := by
  obtain ⟨hnear, hnear'⟩ := distanceFold_mem h t
  rw [foldCandidate_eq]
  dsimp only
  split_ifs <;> omega

theorem folds_bring_into_range : Clause.FoldsBringCandidatesIntoRange := by
  intro h t hlow hhigh
  exact ⟨fun hnear => distanceFold_of_near _ hnear.1 hnear.2, fun habove => distanceFold_of_above habove (by omega),
    fun hbelow => distanceFold_of_below hbelow (by omega), distanceFold_keeps_pitchClass h _ t, foldCandidate_eq h t,
    foldCandidate_mem hlow hhigh t⟩

/-! ### The snap (R57, R74, R75) -/

/-- The first of 0..n at which f is least, found as the snap finds it. -/
def firstLeast (f : Nat → Nat) (n : Nat) : Nat :=
  (List.range (n + 1)).foldl (fun best d => if f d < f best then d else best) 0

theorem firstLeast_zero (f : Nat → Nat) : firstLeast f 0 = 0 := by simp [firstLeast]

theorem firstLeast_succ (f : Nat → Nat) (n : Nat) :
    firstLeast f (n + 1) = if f (n + 1) < f (firstLeast f n) then n + 1 else firstLeast f n := by
  rw [firstLeast, List.range_succ, List.foldl_concat, ← firstLeast]

theorem firstLeast_le (f : Nat → Nat) (n : Nat) : firstLeast f n ≤ n := by
  induction n with
  | zero => rw [firstLeast_zero]
  | succ n ih =>
    rw [firstLeast_succ]
    split_ifs <;> omega

theorem firstLeast_least (f : Nat → Nat) {n e : Nat} (he : e ≤ n) : f (firstLeast f n) ≤ f e := by
  induction n with
  | zero => rw [firstLeast_zero, Nat.le_zero.1 he]
  | succ n ih =>
    rw [firstLeast_succ]
    rcases he.lt_or_eq with hlt | rfl
    · have := ih (Nat.le_of_lt_succ hlt)
      split_ifs <;> omega
    · split_ifs <;> omega

theorem firstLeast_first (f : Nat → Nat) {n e : Nat} (he : e < firstLeast f n) : f (firstLeast f n) < f e := by
  induction n with
  | zero => exact absurd he (by simp [firstLeast_zero])
  | succ n ih =>
    rw [firstLeast_succ] at he ⊢
    split_ifs at he ⊢ with hless
    · exact hless.trans_le (firstLeast_least f (Nat.le_of_lt_succ he))
    · exact ih he

theorem snapDegree_eq (scale : Nat) (p : Int) :
    snapDegree scale p = firstLeast (fun d => ((scaleOffsets scale ++ [12]).getD d 0 - p).natAbs) 7 := rfl

theorem scaleOffsets_length (scale : Nat) : (scaleOffsets scale).length = 7 := by
  unfold scaleOffsets
  split_ifs <;> rfl

/-- A degree within the octave has the same offset with the octave's end listed and without. -/
theorem scaleOffsets_getD (scale : Nat) (n : Int) :
    (scaleOffsets scale).getD (n % 7).toNat 0 = (scaleOffsets scale ++ [12]).getD (n % 7).toNat 0 :=
  (List.getD_append _ _ _ _ (by rw [scaleOffsets_length]; omega)).symm

theorem degree_snap_nearest : Clause.DegreeSnapTakesTheNearestOffset := by
  intro scale root h i _ _ _ _ p off d
  have hd : d = firstLeast (fun e => (off e - p).natAbs) 7 := snapDegree_eq scale.val p
  refine ⟨?_, fun e => ?_, fun e he => ?_, ?_⟩
  · rw [hd]
    exact firstLeast_le _ 7
  · rw [hd]
    exact firstLeast_least (fun e => (off e - p).natAbs) (Nat.le_of_lt_succ e.isLt)
  · rw [hd] at he ⊢
    exact firstLeast_first (fun e => (off e - p).natAbs) he
  · exact congrArg (h - p + 12 * (((d : Int) + i) / 7) + ·) (scaleOffsets_getD scale.val _)

/-! ### The candidate list (R79) -/

theorem candidates_getElem? (scene : Scene) (rule : VoiceRule) (h j : Nat) :
    (candidates scene rule h)[j]? = (rule.primary :: rule.alternates)[j]?.map fun i =>
      (foldCandidate h (unfoldedCandidate scene rule.mode h i)).toNat := List.getElem?_map

theorem candidate_list_ordered : Clause.CandidateListTakesThePrimaryFirst := by
  intro scene rule h hlow hhigh _
  refine ⟨by rw [candidates, List.length_map, List.length_cons, Nat.add_comm], fun j i hi => ?_⟩
  obtain ⟨hnonneg, -⟩ := foldCandidate_mem (h := h) (by omega) (by omega) (unfoldedCandidate scene rule.mode h i)
  refine ⟨_, by rw [candidates_getElem?, hi, Option.map_some], fun hmode => ?_, fun hmode => ?_⟩ <;>
  · rw [Int.toNat_of_nonneg (by omega), hmode]
    rfl

/-- Settles O22: the snap is a search for the first least distance, and the distance fold ends on the held note's side
from which it came, so that the range fold needs one octave. -/
theorem candidatesSnapAndFold : Obligations.CandidatesSnapAndFold :=
  ⟨folds_bring_into_range, degree_snap_nearest, rfl, candidate_list_ordered⟩

end Sys2Proof.CandidateNotes

/-! PROOF. The steps of the voices (chapter 05, section 5.5): a computed step is clamped, a glide step lies between its
ends, and a step comes into force from a posting alone. -/

namespace Sys2Proof.StepRange

open Sys2Proof.Machine

/-! ### Computed steps (R80, R81, R82) -/

theorem clampStep_eq (x : Int) : (clampStep x : Int) = if x < 2048 then 2048 else if 8192 < x then 8192 else x := by
  simp only [clampStep, clampInt, Config.minStep, Config.maxStep]
  split_ifs <;> omega

theorem clampStep_sound (x : Int) : stepSound (clampStep x) := by
  have h := clampStep_eq x
  unfold stepSound
  split_ifs at h <;> omega

theorem steps_rounded_then_clamped : Clause.StepsAreRoundedThenClamped :=
  fun _ _ _ _ => ⟨clampStep_eq _, clampStep_eq _⟩

theorem stepFor_sound (npt : List Nat) (i : Intonation) (h p t : Nat) : stepSound (stepFor npt i h p t) := by
  cases i <;> exact clampStep_sound _

/-! ### Glide steps (R84, R85) -/

/-- A glide whose origin is in range and that has a position left to run. -/
def GlideSound (g : Glide) : Prop := stepSound g.origin ∧ g.position < g.length

/-- A rounded share of a distance lies between 0 and the distance, so the glide step lies between its ends. -/
theorem glideStep_sound {origin new j length : Nat} (ho : stepSound origin) (hn : stepSound new) (hj : j ≤ length)
    (hlength : 0 < length) : stepSound (glideStep origin new j length) := by
  obtain ⟨ho, ho'⟩ := ho
  obtain ⟨hn, hn'⟩ := hn
  have hlow : min 0 ((new : Int) - origin) * length ≤ ((new : Int) - origin) * j := by
    rcases le_total (0 : Int) (new - origin) with hup | hdown
    · rw [min_eq_left hup, zero_mul]
      positivity
    · rw [min_eq_right hdown]
      exact mul_le_mul_of_nonpos_left (by exact_mod_cast hj) hdown
  have hhigh : ((new : Int) - origin) * j ≤ max 0 ((new : Int) - origin) * length := by
    rcases le_total (0 : Int) (new - origin) with hup | hdown
    · rw [max_eq_right hup]
      exact mul_le_mul_of_nonneg_left (by exact_mod_cast hj) hup
    · rw [max_eq_left hdown, zero_mul]
      exact mul_nonpos_of_nonpos_of_nonneg hdown (by positivity)
  obtain ⟨hmin, hmax⟩ := PeriodTable.roundHalfUp_mem hlength hlow hhigh
  unfold stepSound glideStep
  omega

theorem advanceGlide_sound {g : Glide} {new : Nat} (hg : GlideSound g) (hn : stepSound new) :
    stepSound (advanceGlide g new).1 ∧ ∀ g', (advanceGlide g new).2 = some g' → GlideSound g' := by
  obtain ⟨horigin, hleft⟩ := hg
  refine ⟨glideStep_sound horigin hn (Nat.succ_le_of_lt hleft) (by omega), fun g' hg' => ?_⟩
  obtain ⟨hnext, rfl⟩ : g.position + 1 < g.length ∧ { g with position := g.position + 1 } = g' := by
    simpa [advanceGlide] using hg'
  exact ⟨horigin, hnext⟩

/-! ### The law at one voice -/

/-- The channel's part of the law. -/
def ChannelSound (c : Channel) : Prop := ∀ k, c.stepInForce = some k → stepSound k

/-- The allocator's part of the law. -/
def VoiceSound (a : VoiceAlloc) : Prop :=
  (∀ k, a.postedStep = some k → stepSound k) ∧ ∀ g, a.glide = some g → GlideSound g

theorem stepsInRange_iff {s : State} :
    s.stepsInRange ↔ ∀ v : Voice, ChannelSound (s.channel v) ∧ VoiceSound (s.voice v) := Iff.rfl

theorem channel_sound {s : State} (h : s.stepsInRange) (v : Voice) : ChannelSound (s.channel v) :=
  (stepsInRange_iff.1 h v).1

theorem voice_sound {s : State} (h : s.stepsInRange) (v : Voice) : VoiceSound (s.voice v) :=
  (stepsInRange_iff.1 h v).2

theorem ChannelSound.of_eq {c d : Channel} (h : ChannelSound c) (e : d.stepInForce = c.stepInForce) :
    ChannelSound d := fun k hk => h k (e ▸ hk)

theorem channelSound_of_none {c : Channel} (e : c.stepInForce = none) : ChannelSound c :=
  fun _ hk => nomatch e.symm.trans hk

theorem channelSound_stopped (b : Bool) (c : Channel) : ChannelSound (c.stopped b) := channelSound_of_none rfl

/-- A voice without a posted step and a glide. -/
theorem voiceSound_of_none {a : VoiceAlloc} (hstep : a.postedStep = none) (hglide : a.glide = none) : VoiceSound a :=
  ⟨fun _ hk => (nomatch hstep.symm.trans hk), fun _ hg => (nomatch hglide.symm.trans hg)⟩

theorem voiceSound_cleared : VoiceSound clearedVoice := voiceSound_of_none rfl rfl

theorem ChannelSound.moved {a : VoiceAlloc} {c d : Channel} (hc : ChannelSound c) (ha : VoiceSound a)
    (h : c.Moved a.postedStep d) : ChannelSound d := by
  obtain ⟨-, hsame | ⟨-, hposted⟩⟩ := h
  · exact hc.of_eq hsame
  · exact fun k hk => ha.1 k (hposted.symm.trans hk)

/-! ### The channel operations leave the step in force -/

theorem noTarget_stepInForce (c : Channel) : c.noTarget.stepInForce = c.stepInForce := by
  unfold Channel.noTarget
  split <;> rfl

theorem sceneOff_stepInForce (c : Channel) : c.sceneOff.stepInForce = c.stepInForce := by
  unfold Channel.sceneOff
  split <;> first | rfl | exact noTarget_stepInForce c

theorem sceneOn_stepInForce (c : Channel) : c.sceneOn.stepInForce = c.stepInForce := by
  unfold Channel.sceneOn
  split <;> rfl

theorem hush_stepInForce (c : Channel) : c.hush.stepInForce = c.stepInForce := by
  unfold Channel.hush
  split
  · exact noTarget_stepInForce c
  · rfl

theorem advanceRamp_stepInForce (q : Pos) (c : Channel) : (c.advanceRamp q).stepInForce = c.stepInForce := by
  unfold Channel.advanceRamp
  repeat' first | rfl | split

theorem passPosition_stepInForce (q : Pos) (c : Channel) : (c.passPosition q).stepInForce = c.stepInForce :=
  advanceRamp_stepInForce q _

theorem channelSound_silence (b : Bool) (c : Channel) : ChannelSound (c.silence b) := by
  unfold Channel.silence
  split
  · exact channelSound_stopped b c
  · exact channelSound_of_none rfl

/-! ### What leaves the voices alone -/

/-- The channels and what the allocator holds for the voices stand in t as in s. -/
def SameVoices (s t : State) : Prop := t.channels = s.channels ∧ t.alloc.voices = s.alloc.voices

theorem SameVoices.trans {s t u : State} (h : SameVoices s t) (h' : SameVoices t u) : SameVoices s u :=
  ⟨h'.1.trans h.1, h'.2.trans h.2⟩

theorem SameVoices.stepsInRange {s t : State} (h : SameVoices s t) (hs : s.stepsInRange) : t.stepsInRange := by
  rw [stepsInRange_iff] at hs ⊢
  simpa only [State.channel, State.voice, h.1, h.2] using hs

section
variable (s : State)

theorem sameVoices_setLine (l : LineControl) : SameVoices s (s.setLine l) := ⟨rfl, rfl⟩

theorem sameVoices_bump (k : Counter) : SameVoices s (s.bump k) := ⟨rfl, rfl⟩

theorem sameVoices_bumpTimes (k : Counter) (n : Nat) : SameVoices s (State.bumpTimes k n s) := by
  rw [State.bumpTimes_eq]
  exact ⟨rfl, rfl⟩

theorem sameVoices_abandonAnalysis : SameVoices s s.abandonAnalysis := by
  unfold State.abandonAnalysis
  split <;> exact ⟨rfl, rfl⟩

theorem sameVoices_leaveWarming : SameVoices s s.leaveWarming := by
  unfold State.leaveWarming
  repeat' first | exact ⟨rfl, rfl⟩ | split

theorem sameVoices_takeTick : SameVoices s s.takeTick := by
  unfold State.takeTick
  split <;> exact ⟨rfl, rfl⟩

theorem sameVoices_overwriteWindow : SameVoices s s.overwriteWindow := by
  unfold State.overwriteWindow
  split
  · split
    · exact .trans (sameVoices_abandonAnalysis s) (sameVoices_bump _ _)
    · exact ⟨rfl, rfl⟩
  · exact ⟨rfl, rfl⟩

theorem sameVoices_acceptClaim (m : ClaimMsg) : SameVoices s (s.acceptClaim m) := by
  unfold State.acceptClaim
  repeat' first | exact ⟨rfl, rfl⟩ | split

theorem sameVoices_expireEntries : SameVoices s s.expireEntries :=
  .trans ⟨rfl, rfl⟩ (sameVoices_bumpTimes _ _ _)

theorem sameVoices_updateMap : SameVoices s s.updateMap := .trans ⟨rfl, rfl⟩ (sameVoices_expireEntries _)

theorem sameVoices_recordPlaced (r : ClaimRecord) : SameVoices s (s.keepRecord r).placeRecord := ⟨rfl, rfl⟩

theorem sameVoices_countDecision : SameVoices s s.countDecision := ⟨rfl, rfl⟩

theorem sameVoices_recordDecision : SameVoices s s.recordDecision := ⟨rfl, rfl⟩

theorem sameVoices_sendTest : SameVoices s s.sendTest := by
  unfold State.sendTest
  split <;> exact ⟨rfl, rfl⟩

theorem sameVoices_takeFrameSync : SameVoices s s.takeFrameSync := by
  simp only [State.takeFrameSync, State.audioReturn]
  split <;> exact ⟨rfl, rfl⟩

theorem sameVoices_trimMarks : SameVoices s s.trimMarks := by
  unfold State.trimMarks
  split <;> exact ⟨rfl, rfl⟩

/-! The line -/

theorem sameVoices_takeFrameStart : SameVoices s s.takeFrameStart := by
  unfold State.takeFrameStart
  split <;> exact ⟨rfl, rfl⟩

theorem sameVoices_takeStartBit : SameVoices s s.takeStartBit := by
  unfold State.takeStartBit
  split <;> exact ⟨rfl, rfl⟩

theorem sameVoices_appendChar (c : Byte) (l : List Byte) (p : Pos) (b : Bool) :
    SameVoices s (s.appendChar c l p b) := by
  unfold State.appendChar
  split <;> exact ⟨rfl, rfl⟩

theorem sameVoices_takeChar (c : Byte) : SameVoices s (s.takeChar c) := by
  unfold State.takeChar
  split
  · exact .trans (sameVoices_setLine s _) (sameVoices_appendChar _ _ _ _ _)
  all_goals exact ⟨rfl, rfl⟩

theorem sameVoices_takeReturnToMark : SameVoices s s.takeReturnToMark := by
  unfold State.takeReturnToMark
  split <;> exact ⟨rfl, rfl⟩

theorem sameVoices_clashTest (i : StationId) (b : Bool) : SameVoices s (s.clashTest i b) := by
  unfold State.clashTest
  split <;> exact ⟨rfl, rfl⟩

theorem sameVoices_route (p : Pos) (h : Byte) (l : List Byte) : SameVoices s (s.route p h l) := by
  unfold State.route
  split <;> exact ⟨rfl, rfl⟩

theorem sameVoices_judge (l : List Byte) (p : Pos) (b : Bool) : SameVoices s (s.judge l p b) := by
  unfold State.judge
  split
  · exact ⟨rfl, rfl⟩
  · split
    · exact ((sameVoices_setLine s _).trans (sameVoices_clashTest _ _ _)).trans (sameVoices_route _ _ _ _)
    · exact sameVoices_bump s _

theorem sameVoices_takeBoundary : SameVoices s s.takeBoundary := by
  unfold State.takeBoundary State.endFrame
  split
  · split
    case h_2 => exact .trans (sameVoices_setLine s _) (sameVoices_judge _ _ _ _)
    all_goals exact ⟨rfl, rfl⟩
  · exact ⟨rfl, rfl⟩

theorem sameVoices_beginSend : SameVoices s s.beginSend := by
  unfold State.beginSend
  split <;> exact ⟨rfl, rfl⟩

theorem sameVoices_collide (f : FrameInHand) : SameVoices s (s.collide f) := by
  simp only [State.collide]
  repeat' first | exact ⟨rfl, rfl⟩ | split

theorem sameVoices_endSendForBreak : SameVoices s s.endSendForBreak := by
  unfold State.endSendForBreak
  split
  · exact sameVoices_collide s _
  · exact ⟨rfl, rfl⟩

theorem sameVoices_reportSuccess (k : SlotContent) : SameVoices s (s.reportSuccess k) := by
  unfold State.reportSuccess
  repeat' first | exact ⟨rfl, rfl⟩ | split

theorem sameVoices_takeEcho (x : Option Byte) : SameVoices s (s.takeEcho x) := by
  unfold State.takeEcho State.checkEcho
  split
  · split
    · split
      · exact ⟨rfl, rfl⟩
      · simp only [State.sendSuccess]
        exact .trans (sameVoices_setLine s _) (sameVoices_reportSuccess _ _)
    · exact sameVoices_collide s _
  · exact ⟨rfl, rfl⟩

end

/-! ### What moves the voices -/

section
variable {s t : State}

theorem setChannel_stepsInRange (h : s.stepsInRange) (v : Voice) {c : Channel} (hc : ChannelSound c) :
    (s.setChannel v c).stepsInRange := by
  rw [stepsInRange_iff] at h ⊢
  intro w
  rw [State.channel_setChannel, State.voice_setChannel]
  split
  · exact ⟨hc, voice_sound h w⟩
  · exact h w

theorem setVoice_stepsInRange (h : s.stepsInRange) (v : Voice) {a : VoiceAlloc} (ha : VoiceSound a) :
    (s.setVoice v a).stepsInRange := by
  rw [stepsInRange_iff] at h ⊢
  intro w
  rw [State.voice_setVoice, State.channel_setVoice]
  split
  · exact ⟨channel_sound h w, ha⟩
  · exact h w

theorem forVoices_stepsInRange {f : Voice → State → State}
    (hf : ∀ v (s : State), s.stepsInRange → (f v s).stepsInRange) (h : s.stepsInRange) : (s.forVoices f).stepsInRange :=
  hf _ _ (hf _ _ (hf _ _ (hf _ _ h)))

/-- The grain cycle takes its steps from the postings (R83, R138). -/
theorem cycleMoved_stepsInRange (m : s.CycleMoved t) (h : s.stepsInRange) : t.stepsInRange := by
  rw [stepsInRange_iff] at h ⊢
  intro v
  obtain ⟨hc, ha⟩ := h v
  rw [State.CycleMoved.voice m.1]
  exact ⟨hc.moved ha (m.2 v), ha⟩

/-- Every channel changed on its own. -/
theorem ofFn_stepsInRange (h : s.stepsInRange) (hv : t.alloc.voices = s.alloc.voices) {f : Voice → Channel}
    (hc : t.channels = Quad.ofFn f) (hf : ∀ v, ChannelSound (s.channel v) → ChannelSound (f v)) : t.stepsInRange := by
  rw [stepsInRange_iff] at h ⊢
  intro v
  rw [State.channel, State.voice, hc, hv, Quad.get_ofFn]
  exact ⟨hf v (channel_sound h v), voice_sound h v⟩

theorem clearTargets_stepsInRange (h : s.stepsInRange) : s.clearTargets.stepsInRange := by
  rw [stepsInRange_iff] at h ⊢
  intro v
  refine ⟨channel_sound h v, ?_⟩
  rw [State.voice, State.clearTargets_alloc, Quad.get_const]
  exact voiceSound_cleared

theorem withdrawClaims_stepsInRange (h : s.stepsInRange) : s.withdrawClaims.stepsInRange :=
  (sameVoices_recordPlaced _ _).stepsInRange (clearTargets_stepsInRange h)

theorem postNoTarget_stepsInRange (h : s.stepsInRange) (v : Voice) : (s.postNoTarget v).stepsInRange :=
  setChannel_stepsInRange h v ((channel_sound h v).of_eq (noTarget_stepInForce _))

/-! Scenes and frames -/

theorem sceneVoice_stepsInRange (v : Voice) (h : s.stepsInRange) : (s.sceneVoice v).stepsInRange := by
  unfold State.sceneVoice
  split
  · split
    · exact setChannel_stepsInRange (setVoice_stepsInRange h v voiceSound_cleared) v
        ((channel_sound h v).of_eq (sceneOff_stepInForce _))
    · exact setChannel_stepsInRange h v ((channel_sound h v).of_eq (sceneOn_stepInForce _))
  · exact h

theorem sceneTakesEffect_stepsInRange (h : s.stepsInRange) (sc : Scene) : (s.sceneTakesEffect sc).stepsInRange :=
  forVoices_stepsInRange (fun v _ => sceneVoice_stepsInRange v)
    (SameVoices.stepsInRange (.trans ⟨rfl, rfl⟩ (sameVoices_abandonAnalysis _)) h)

theorem takeDueScene_stepsInRange (h : s.stepsInRange) : s.takeDueScene.stepsInRange := by
  unfold State.takeDueScene
  split
  · split
    · split
      · exact sceneTakesEffect_stepsInRange h _
      · exact h
    · exact h
  · exact h

theorem takeRestScene_stepsInRange (h : s.stepsInRange) : s.takeRestScene.stepsInRange := by
  unfold State.takeRestScene
  split
  · split
    · exact sceneTakesEffect_stepsInRange h _
    · exact h
  · exact h

theorem switchScene_stepsInRange (h : s.stepsInRange) (p : Pos) (m : SceneMsg) : (s.switchScene p m).stepsInRange := by
  unfold State.switchScene
  split
  · exact sceneTakesEffect_stepsInRange h _
  · exact h
  · split
    · exact sceneTakesEffect_stepsInRange h _
    · exact h

theorem acceptScene_stepsInRange (h : s.stepsInRange) (p : Pos) (m : SceneMsg) : (s.acceptScene p m).stepsInRange := by
  unfold State.acceptScene
  split
  · refine switchScene_stepsInRange ?_ p m
    split <;> exact h
  · exact h

theorem bypassOn_stepsInRange (h : s.stepsInRange) : s.bypassOn.stepsInRange := by
  have hset : ({ s with scenes := { s.scenes with bypass := true } } : State).stepsInRange :=
    SameVoices.stepsInRange ⟨rfl, rfl⟩ h
  refine (sameVoices_recordPlaced _ _).stepsInRange
    (forVoices_stepsInRange (fun v s h => ?_) (clearTargets_stepsInRange hset))
  split
  · exact postNoTarget_stepsInRange h v
  · exact h

theorem acceptFrame_stepsInRange (h : s.stepsInRange) (a : Accepted) : (s.acceptFrame a).stepsInRange := by
  cases a with
  | claim m => exact (sameVoices_acceptClaim s m).stepsInRange h
  | scene p m => exact acceptScene_stepsInRange h p m
  | bypassOn =>
    simp only [State.acceptFrame, State.acceptBypassOn]
    split
    · exact h
    · exact bypassOn_stepsInRange h
  | bypassOff => exact h
  | query c => exact h

/-! Owed steps -/

theorem rampFull_stepsInRange (h : s.stepsInRange) (v : Voice) : (s.rampFull v).stepsInRange := by
  simp only [State.rampFull]
  split
  · split
    · exact setChannel_stepsInRange h v ((channel_sound h v).of_eq rfl)
    · exact h
  · exact h

theorem stopCycle_stepsInRange (h : s.stepsInRange) (v : Voice) : (s.stopCycle v).stepsInRange := by
  simp only [State.stopCycle]
  split
  · split
    · exact setChannel_stepsInRange (SameVoices.stepsInRange ⟨rfl, rfl⟩ h) v (channelSound_stopped _ _)
    · exact h
  · exact h

theorem perform_stepsInRange (h : s.stepsInRange) (o : Owed) : (State.perform o s).stepsInRange := by
  cases o with
  | leaveWarming => exact (sameVoices_leaveWarming s).stepsInRange h
  | analysisTick => exact (sameVoices_takeTick s).stepsInRange h
  | windowOverwrite => exact (sameVoices_overwriteWindow s).stepsInRange h
  | sceneDuePoint => exact takeDueScene_stepsInRange h
  | fetchWithdrawal v => exact cycleMoved_stepsInRange (s.cycleMoved_withdrawOverwritten v) h
  | placementPointDue v => exact cycleMoved_stepsInRange (s.cycleMoved_placementPointDue v) h
  | grainDrop v => exact cycleMoved_stepsInRange (s.cycleMoved_dropGrain v) h
  | enteringRampFull v => exact rampFull_stepsInRange h v
  | cycleStop v => exact stopCycle_stepsInRange h v
  | accept a => exact acceptFrame_stepsInRange h a

/-! ### The decision's postings (R83, R117) -/

/-- A cycle starts with the posted step. -/
theorem startCycle_stepsInRange (h : s.stepsInRange) (v : Voice) (b : Bool) : (s.startCycle v b).stepsInRange := by
  simp only [State.startCycle]
  split
  · exact cycleMoved_stepsInRange (State.cycleMoved_requestFetch _ v _) (setChannel_stepsInRange h v (voice_sound h v).1)
  · exact setChannel_stepsInRange h v (voice_sound h v).1

theorem postTarget_stepsInRange (h : s.stepsInRange) (v : Voice) (b : Bool) : (s.postTarget v b).stepsInRange := by
  simp only [State.postTarget]
  split
  · exact h
  · exact startCycle_stepsInRange h v true
  · exact h
  · exact setChannel_stepsInRange h v ((channel_sound h v).of_eq rfl)
  · exact setChannel_stepsInRange h v ((channel_sound h v).of_eq rfl)
  · split
    · exact setChannel_stepsInRange h v ((channel_sound h v).of_eq rfl)
    · exact startCycle_stepsInRange h v false

/-- A glide goes on, or begins at position 0 from the step in force. -/
theorem glideFor_sound {c : Channel} {length t new : Nat} {before : Option Nat} {g : Option Glide}
    (hc : ChannelSound c) (hn : stepSound new) (hg : ∀ k, g = some k → GlideSound k) :
    ∀ k, glideFor c length before t new g = some k → GlideSound k := by
  unfold glideFor
  split_ifs with _ _ hlength
  · exact hg
  · rintro k ⟨⟩
    refine ⟨?_, hlength⟩
    cases hstep : c.stepInForce with
    | none => exact hn
    | some n => exact hc n hstep
  · nofun
  · nofun

theorem postVoiceTarget_stepsInRange (h : s.stepsInRange) (n p : Nat) (before : Option Nat) (v : Voice) (t : Nat) :
    (s.postVoiceTarget n p before v t).stepsInRange := by
  have hnew := stepFor_sound s.npt (s.rule v).intonation n p t
  simp only [State.postVoiceTarget]
  split
  · next g hg =>
    obtain ⟨hstep, hglide⟩ := advanceGlide_sound (glideFor_sound (channel_sound h v) hnew (voice_sound h v).2 g hg) hnew
    refine postTarget_stepsInRange (setVoice_stepsInRange h v ?_) v _
    exact ⟨fun _ hk => Option.some.inj hk ▸ hstep, hglide⟩
  · refine postTarget_stepsInRange (setVoice_stepsInRange h v ?_) v _
    exact ⟨fun _ hk => Option.some.inj hk ▸ hnew, nofun⟩

theorem postVoice_stepsInRange (h : s.stepsInRange) (held : Option (Nat × Nat)) (before : Quad VoiceAlloc) (v : Voice) :
    (s.postVoice held before v).stepsInRange := by
  unfold State.postVoice
  split
  · split
    · exact postVoiceTarget_stepsInRange h _ _ _ v _
    · exact postNoTarget_stepsInRange (setVoice_stepsInRange h v (voiceSound_of_none rfl rfl)) v
  · exact h

/-! The passes change no posted step and no glide -/

/-- The allocator's part of the law during the passes. -/
def PassesSound (p : Passes) : Prop := ∀ v, VoiceSound (p.voices.get v)

theorem set_voiceSound {q : Quad VoiceAlloc} (h : ∀ v, VoiceSound (q.get v)) (v : Voice) {a : VoiceAlloc}
    (ha : VoiceSound a) (w : Voice) : VoiceSound ((q.set v a).get w) := by
  rw [Quad.get_set]
  split
  · exact ha
  · exact h w

theorem holdVoice_sound {p : Passes} (hp : PassesSound p) (n : Nat) (v : Voice) : PassesSound (s.holdVoice n v p) := by
  simp only [State.holdVoice]
  split
  · split <;> exact set_voiceSound hp v (hp v)
  · exact hp

theorem give_sound {p : Passes} (hp : PassesSound p) (v : Voice) (t : Nat) (b : Bool) : PassesSound (p.give v t b) :=
  set_voiceSound hp v (hp v)

theorem unplace_sound {p : Passes} (hp : PassesSound p) (v : Voice) : PassesSound (p.unplace v) :=
  set_voiceSound hp v (hp v)

theorem assignVoice_sound {p : Passes} (hp : PassesSound p) (n : Nat) (v : Voice) :
    PassesSound (s.assignVoice n v p) := by
  simp only [State.assignVoice]
  split
  · exact hp
  · split
    · exact set_voiceSound hp v (hp v)
    · split
      · exact give_sound hp v _ _
      · split
        · split
          · exact give_sound hp v _ _
          · exact unplace_sound hp v
        · exact unplace_sound hp v

theorem foldl_passesSound {f : Passes → Voice → Passes} (hf : ∀ p v, PassesSound p → PassesSound (f p v))
    (l : List Voice) {p : Passes} (hp : PassesSound p) : PassesSound (l.foldl f p) :=
  List.foldlRecOn l f hp fun p hp v _ => hf p v hp

theorem runPasses_sound (h : s.stepsInRange) (n : Nat) : PassesSound (s.runPasses n) :=
  foldl_passesSound (fun _ v hp => assignVoice_sound hp n v) _
    (foldl_passesSound (fun _ v hp => holdVoice_sound hp n v) _ (voice_sound h))

theorem allocate_stepsInRange (h : s.stepsInRange) : s.allocate.stepsInRange := by
  unfold State.allocate
  split
  · exact (sameVoices_bumpTimes _ _ _).stepsInRange
      (stepsInRange_iff.2 fun v => ⟨channel_sound h v, runPasses_sound h _ v⟩)
  · exact clearTargets_stepsInRange h

theorem postAll_stepsInRange (h : s.stepsInRange) (before : Quad VoiceAlloc) : (s.postAll before).stepsInRange :=
  forVoices_stepsInRange (fun v _ h => postVoice_stepsInRange h _ before v) h

theorem takeDecision_stepsInRange (h : s.stepsInRange) (r : Reason) : (s.takeDecision r).stepsInRange := by
  have hfollow : ({ s with follower := followerStep r s.follower } : State).stepsInRange :=
    SameVoices.stepsInRange ⟨rfl, rfl⟩ h
  have hscene := takeRestScene_stepsInRange ((sameVoices_updateMap _).stepsInRange hfollow)
  have hcount := (sameVoices_countDecision _).stepsInRange hscene
  exact (sameVoices_sendTest _).stepsInRange
    ((sameVoices_recordDecision _).stepsInRange (postAll_stepsInRange (allocate_stepsInRange hcount) _))

/-! ### Completions, arrivals, the loss of audio and the hush -/

theorem finishJob_stepsInRange (h : s.stepsInRange) : s.finishJob.stepsInRange :=
  cycleMoved_stepsInRange s.cycleMoved_finishJob h

theorem segmentDone_stepsInRange (h : s.stepsInRange) (p : Pos) : (s.segmentDone p).stepsInRange := by
  unfold State.segmentDone
  split
  · split
    · split
      · exact SameVoices.stepsInRange ⟨rfl, rfl⟩ h
      · exact takeDecision_stepsInRange (s := s.writeResult _) (SameVoices.stepsInRange ⟨rfl, rfl⟩ h) _
    · exact h
  · exact h

theorem completeSegment_stepsInRange (h : s.stepsInRange) : s.completeSegment.stepsInRange := by
  unfold State.completeSegment
  split
  · refine finishJob_stepsInRange ?_
    split
    · exact segmentDone_stepsInRange h _
    · exact h
  · exact h

theorem completeFetch_stepsInRange (h : s.stepsInRange) : s.completeFetch.stepsInRange := by
  unfold State.completeFetch
  split
  · refine finishJob_stepsInRange ?_
    split
    · exact cycleMoved_stepsInRange (s.cycleMoved_fetchDone _ _ _) h
    · exact h
  · exact h

theorem placeGrain_stepsInRange (h : s.stepsInRange) (v : Voice) (g : Grain) (p : Pos16) :
    (s.placeGrain v g p).stepsInRange :=
  setChannel_stepsInRange h v ((channel_sound h v).of_eq rfl)

theorem placeDone_stepsInRange (h : s.stepsInRange) (v : Voice) (g : Grain) (p : Pos16) (f : Fate) :
    (s.placeDone v g p f).stepsInRange := by
  cases f with
  | live => exact cycleMoved_stepsInRange (State.cycleMoved_advanceIfRunning _ v g) (placeGrain_stepsInRange h v g p)
  | addsOnly => exact placeGrain_stepsInRange h v g p
  | dropped => exact cycleMoved_stepsInRange (s.cycleMoved_advanceIfRunning v g) h
  | discarded => exact h

theorem completePlace_stepsInRange (h : s.stepsInRange) : s.completePlace.stepsInRange := by
  unfold State.completePlace
  split
  · exact finishJob_stepsInRange (placeDone_stepsInRange h _ _ _ _)
  · exact h

theorem positionDue_stepsInRange (h : s.stepsInRange) : s.positionDue.stepsInRange :=
  ofFn_stepsInRange h rfl rfl fun _ hc => hc.of_eq (passPosition_stepInForce _ _)

theorem loseAudio_stepsInRange (h : s.stepsInRange) : s.loseAudio.stepsInRange :=
  withdrawClaims_stepsInRange (ofFn_stepsInRange h rfl rfl fun _ _ => channelSound_silence _ _)

theorem hushListeners_stepsInRange (h : s.stepsInRange) : s.hushListeners.stepsInRange :=
  SameVoices.stepsInRange (.trans (sameVoices_abandonAnalysis s) ⟨rfl, rfl⟩) h

theorem hushRenderer_stepsInRange (h : s.stepsInRange) : s.hushRenderer.stepsInRange :=
  ofFn_stepsInRange h rfl rfl fun _ hc => hc.of_eq (hush_stepInForce _)

theorem takeHush_stepsInRange (h : s.stepsInRange) : s.takeHush.stepsInRange := by
  have hended : (s.endSendForBreak.bump .hush).stepsInRange :=
    ((sameVoices_endSendForBreak s).trans (sameVoices_bump _ _)).stepsInRange h
  have hbroken := (sameVoices_setLine _ (LineControl.breakLine s.endSendForBreak.straps.id
    s.endSendForBreak.line)).stepsInRange hended
  exact (sameVoices_setLine _ _).stepsInRange
    (withdrawClaims_stepsInRange (hushRenderer_stepsInRange (hushListeners_stepsInRange hbroken)))

end

/-! ### Every step (R82) -/

/-- At the reset values no step and no glide stands. -/
theorem released_stepsInRange (pins : StrapPins) (b : Bool) (audioIn : List (List AudioEdge)) (lineIn : List Bool)
    (pending : List Instr) : (State.released pins b audioIn lineIn pending).stepsInRange := by
  rw [stepsInRange_iff]
  intro v
  rw [State.channel, State.voice, State.released, resetAlloc, Quad.get_const, Quad.get_const]
  exact ⟨channelSound_of_none rfl, voiceSound_cleared⟩

theorem stepsInRange_keptByStep : KeptByStep State.stepsInRange where
  perform s o _ h :=
    perform_stepsInRange (s := { s with owed := s.owed.erase o }) (SameVoices.stepsInRange ⟨rfl, rfl⟩ h) o
  accept _ a h := acceptFrame_stepsInRange h a
  sync s _ h := (sameVoices_takeFrameSync s).stepsInRange h
  loss _ _ h := loseAudio_stepsInRange h
  segment _ _ h := completeSegment_stepsInRange h
  expire s _ h := (sameVoices_expireEntries s).stepsInRange h
  fetch _ _ h := completeFetch_stepsInRange h
  place _ _ h := completePlace_stepsInRange h
  frameStart s h := (sameVoices_takeFrameStart s).stepsInRange h
  startBit s h := (sameVoices_takeStartBit s).stepsInRange h
  char s c h := (sameVoices_takeChar s c).stepsInRange h
  returnToMark s h := (sameVoices_takeReturnToMark s).stepsInRange h
  boundary s h := (sameVoices_takeBoundary s).stepsInRange h
  hush _ h := takeHush_stepsInRange h
  idle _ _ _ h := h
  send s h := (sameVoices_beginSend s).stepsInRange h
  echo s x h := (sameVoices_takeEcho s x).stepsInRange h
  hear _ _ _ h := h
  bits _ _ _ h := h
  space _ h := h
  spaceRun _ _ _ h := h
  pending _ _ h := h
  assert s _ := released_stepsInRange s.straps true s.audioIn s.lineIn s.pending
  release s pins m _ := released_stepsInRange pins m s.audioIn s.lineIn s.pending
  audioIn _ _ h := h
  lineIn _ _ h := h
  fall _ _ h := h
  bit _ _ _ _ h := h
  arrival s x _ h := positionDue_stepsInRange
    (SameVoices.stepsInRange (.trans (t := s.captureSample x) ⟨rfl, rfl⟩ (sameVoices_trimMarks _)) h)
  tick _ _ _ h := h

/-- Settles O56: clamped steps alone are posted, glides run between them, and a step comes into force from a posting,
so every part of a command keeps the range. -/
theorem stepsInForceStayWithinAnOctave : Obligations.StepsInForceStayWithinAnOctave :=
  ⟨steps_rounded_then_clamped, released_stepsInRange _ _ _ _ _, fun _ _ h e => stepsInRange_keptByStep.stepKeeps h e⟩

end Sys2Proof.StepRange

/-! PROOF. The occupation tests (chapter 06, section 6.6): the ranking of a peer's claim by its table, and the tests of
one entry gathered over the map. -/

namespace Sys2Proof.Occupation

open Sys2Proof.Machine

/-! ### The ranking (R105, R106) -/

theorem settled_eq_true_iff {age : Nat} : settled age = true ↔ 16 ≤ age := by
  rw [settled, decide_eq_true_iff]

theorem settled_eq_false_iff {age : Nat} : settled age = false ↔ age < 16 := by
  rw [settled, decide_eq_false_iff_not, not_le]

section
variable {own peer : StationId} {ownAge : Nat} {c : PeerVoice}

theorem outranks_of_doubled (hd : c.doubled = true) : outranks own peer ownAge c = false := by
  rw [outranks, if_pos hd]

theorem outranks_of_settled_peer (hd : c.doubled = false) (hpeer : 16 ≤ c.age) (hown : ownAge < 16) :
    outranks own peer ownAge c = true := by
  simp [outranks, hd, settled_eq_true_iff.mpr hpeer, settled_eq_false_iff.mpr hown]

theorem outranks_of_settled_own (hd : c.doubled = false) (hpeer : c.age < 16) (hown : 16 ≤ ownAge) :
    outranks own peer ownAge c = false := by
  simp [outranks, hd, settled_eq_false_iff.mpr hpeer, settled_eq_true_iff.mpr hown]

/-- With both settled or neither, the table asks the station ids. -/
theorem outranks_of_same_standing (hd : c.doubled = false) (hsame : 16 ≤ c.age ↔ 16 ≤ ownAge) :
    outranks own peer ownAge c = decide (peer.toNat < own.toNat) := by
  have hsettled : settled c.age = settled ownAge :=
    Bool.eq_iff_iff.mpr (by rw [settled_eq_true_iff, settled_eq_true_iff, hsame])
  simp [outranks, hd, hsettled]

end

theorem outranking_follows_table : Clause.OutrankingFollowsItsTable := fun _ _ _ _ =>
  ⟨outranks_of_doubled, outranks_of_settled_peer, outranks_of_settled_own, outranks_of_same_standing⟩

/-! ### The tests (R107, R108) -/

/-- The guard keeps note 0 without a neighbour below: there the subtraction would answer note 0 itself. -/
theorem live_semitone_off_iff {live : Option Nat} {t : Nat} :
    (live = some (t + 1) ∨ 0 < t ∧ live = some (t - 1)) ↔ ∃ l, live = some l ∧ (l = t + 1 ∨ l + 1 = t) := by
  constructor
  · rintro (h | ⟨hpos, h⟩)
    · exact ⟨_, h, .inl rfl⟩
    · exact ⟨_, h, .inr (by omega)⟩
  · rintro ⟨l, h, rfl | rfl⟩
    · exact .inl h
    · exact .inr ⟨l.succ_pos, h⟩

theorem entryForbids_iff {own : StationId} {rubs : Bool} {age t : Nat} {e : PeerEntry} :
    entryForbids own rubs age t e = true ↔
      e.live = some t ∨ (∃ c ∈ e.voices, c.note = t ∧ outranks own e.id age c = true) ∨
      (rubs = false ∧ ((∃ l, e.live = some l ∧ (l = t + 1 ∨ l + 1 = t)) ∨
        ∃ c ∈ e.voices, (c.note = t + 1 ∨ c.note + 1 = t) ∧ outranks own e.id age c = true)) := by
  simp only [← live_semitone_off_iff, entryForbids, Bool.or_eq_true, Bool.and_eq_true, List.any_eq_true,
    decide_eq_true_iff, Bool.not_eq_true', or_assoc]

theorem clashes_iff {own : StationId} {map : List PeerEntry} {rubs : Bool} {taken : List Nat} {age t : Nat} :
    clashes own map rubs taken age t = true ↔ (∃ e ∈ map, entryForbids own rubs age t e = true) ∨ t ∈ taken := by
  simp only [clashes, Bool.or_eq_true, List.any_eq_true, decide_eq_true_iff, exists_eq_right]

/-- Each test of one entry is gathered over the map by itself; the rubs flag is the same for all entries. -/
theorem notes_clash_by_tests : Clause.NotesClashByTheFourTests := by
  intro own map rubs taken age n
  simp only [clashes_iff, entryForbids_iff]
  constructor
  · rintro (⟨e, he, hlive | hclaim | ⟨hrubs, hlive | hclaim⟩⟩ | htaken)
    · exact .inl ⟨e, he, hlive⟩
    · exact .inr (.inl ⟨e, he, hclaim⟩)
    · exact .inr (.inr (.inl ⟨hrubs, .inl ⟨e, he, hlive⟩⟩))
    · exact .inr (.inr (.inl ⟨hrubs, .inr ⟨e, he, hclaim⟩⟩))
    · exact .inr (.inr (.inr htaken))
  · rintro (⟨e, he, hlive⟩ | ⟨e, he, hclaim⟩ | ⟨hrubs, ⟨e, he, hlive⟩ | ⟨e, he, hclaim⟩⟩ | htaken)
    · exact .inl ⟨e, he, .inl hlive⟩
    · exact .inl ⟨e, he, .inr (.inl hclaim)⟩
    · exact .inl ⟨e, he, .inr (.inr ⟨hrubs, .inl hlive⟩)⟩
    · exact .inl ⟨e, he, .inr (.inr ⟨hrubs, .inr hclaim⟩)⟩
    · exact .inr htaken

/-- Settles O26: the ranking is its table row by row, and a note clashes by a test of some entry or by an own voice. -/
theorem clashTestsRankPeerClaims : Obligations.ClashTestsRankPeerClaims :=
  ⟨outranking_follows_table, notes_clash_by_tests⟩

end Sys2Proof.Occupation

/-! PROOF. The two passes of a decision (chapter 07, sections 7.3 and 7.4): the outcome of each pass on one voice as an
equation per case, and the voices it leaves alone. -/

namespace Sys2Proof.VoicePasses

open Sys2Proof.Machine

section
variable {s : State} {h : Nat} {v w : Voice} {p : Passes}

theorem ruleOff_iff : s.ruleOff v = true ↔ (s.rule v).mode = .off := by
  rw [State.ruleOff, decide_eq_true_iff]

/-! ### The hold pass (R113) -/

theorem keepsVoice_iff {taken : List Nat} {age n : Nat} :
    s.keepsVoice h taken v age n = true ↔
      (s.rule v).mode ≠ .off ∧ n ∈ candidates s.scenes.active (s.rule v) h ∧
        clashes s.straps.id s.map s.scenes.active.rubs taken age n = false := by
  simp only [State.keepsVoice, State.candidatesFor, State.noteClashes, Bool.and_eq_true, Bool.not_eq_true',
    Bool.eq_false_iff, ne_eq, ruleOff_iff, List.any_eq_true, decide_eq_true_iff, exists_eq_right, and_assoc]

theorem holdVoice_of_disabled (he : s.enabled v = false) : s.holdVoice h v p = p := by
  simp only [State.holdVoice, he]

theorem holdVoice_of_no_target (ht : (p.voices.get v).target = none) : s.holdVoice h v p = p := by
  simp only [State.holdVoice, ht]
  split
  · contradiction
  · rfl

theorem holdVoice_of_target {n : Nat} (he : s.enabled v = true) (ht : (p.voices.get v).target = some n) :
    s.holdVoice h v p =
      if s.keepsVoice h p.taken v (p.voices.get v).age n then
        { p with
          voices := p.voices.set v { p.voices.get v with
            age := satSucc Config.maxAge (p.voices.get v).age, doubled := false, unplaced := false }
          taken := n :: p.taken }
      else { p with voices := p.voices.set v { p.voices.get v with target := none, age := 0, doubled := false } } := by
  simp only [State.holdVoice, he, ht]

theorem hold_pass_keeps_free_candidates : Clause.HoldPassKeepsFreeCandidates := by
  intro s h v p n he ht
  dsimp only
  rw [← keepsVoice_iff, holdVoice_of_target he ht]
  by_cases hk : s.keepsVoice h p.taken v (p.voices.get v).age n = true
  · rw [if_pos hk]
    exact ⟨fun _ => ⟨Quad.get_set_same .., rfl⟩, fun hlost => absurd hk hlost, rfl,
      fun _ hw => Quad.get_set_ne _ _ hw⟩
  · rw [if_neg hk]
    exact ⟨fun hkept => absurd hkept hk, fun _ => ⟨Quad.get_set_same .., rfl⟩, rfl,
      fun _ hw => Quad.get_set_ne _ _ hw⟩

/-! ### The assign pass (R114, R115, R116) -/

theorem give_get_same (t : Nat) (b : Bool) :
    (p.give v t b).voices.get v =
      { p.voices.get v with target := some t, age := 0, doubled := b, unplaced := false } :=
  Quad.get_set_same ..

theorem give_get_ne (t : Nat) (b : Bool) (hw : w ≠ v) : (p.give v t b).voices.get w = p.voices.get w :=
  Quad.get_set_ne _ _ hw

theorem unplace_get_same :
    (p.unplace v).voices.get v = { p.voices.get v with age := 0, doubled := false, unplaced := true } :=
  Quad.get_set_same ..

theorem unplace_get_ne (hw : w ≠ v) : (p.unplace v).voices.get w = p.voices.get w := Quad.get_set_ne _ _ hw

theorem assignVoice_of_disabled (he : s.enabled v = false) : s.assignVoice h v p = p := by
  simp only [State.assignVoice, he, Bool.not_false, Bool.true_or, if_true]

theorem assignVoice_of_target (ht : (p.voices.get v).target ≠ none) : s.assignVoice h v p = p := by
  simp only [State.assignVoice, Option.isSome_iff_ne_none.mpr ht, Bool.or_true, if_true]

theorem assignVoice_of_off (he : s.enabled v = true) (hoff : (s.rule v).mode = .off)
    (ht : (p.voices.get v).target = none) :
    s.assignVoice h v p =
      { p with voices := p.voices.set v { p.voices.get v with age := 0, doubled := false, unplaced := false } } := by
  simp [State.assignVoice, he, ht, ruleOff_iff.mpr hoff]

section
variable (he : s.enabled v = true) (hon : (s.rule v).mode ≠ .off) (ht : (p.voices.get v).target = none)
include he hon ht

theorem assignVoice_of_first_free {n : Nat}
    (hf : (s.candidatesFor h v).find? (fun t => !s.noteClashes p.taken 0 t) = some n) :
    s.assignVoice h v p = p.give v n false := by
  simp [State.assignVoice, he, ht, mt ruleOff_iff.mp hon, hf]

theorem assignVoice_of_all_busy {primary : Nat} {rest : List Nat}
    (hf : (s.candidatesFor h v).find? (fun t => !s.noteClashes p.taken 0 t) = none)
    (hlist : s.candidatesFor h v = primary :: rest) :
    s.assignVoice h v p =
      if (s.rule v).doubling = true ∧ primary ∉ p.taken then p.give v primary true else p.unplace v := by
  rw [hlist] at hf
  simp [State.assignVoice, he, ht, mt ruleOff_iff.mp hon, hf, hlist, List.forall_mem_ne']

theorem assignVoice_of_no_candidate (hlist : s.candidatesFor h v = []) : s.assignVoice h v p = p.unplace v := by
  simp [State.assignVoice, he, ht, mt ruleOff_iff.mp hon, hlist]

/-- A voice that seeks a target is given a note or goes without: nothing else becomes of the passes. -/
theorem assignVoice_gives_or_unplaces :
    (∃ n b, s.assignVoice h v p = p.give v n b) ∨ s.assignVoice h v p = p.unplace v := by
  cases hlist : s.candidatesFor h v with
  | nil => exact .inr (assignVoice_of_no_candidate he hon ht hlist)
  | cons primary rest =>
    cases hf : (s.candidatesFor h v).find? fun t => !s.noteClashes p.taken 0 t with
    | some n => exact .inl ⟨n, false, assignVoice_of_first_free he hon ht hf⟩
    | none =>
      rw [assignVoice_of_all_busy he hon ht hf hlist]
      split
      · exact .inl ⟨primary, true, rfl⟩
      · exact .inr rfl

theorem assignVoice_get_ne (hw : w ≠ v) : (s.assignVoice h v p).voices.get w = p.voices.get w := by
  obtain ⟨n, b, hq⟩ | hq := assignVoice_gives_or_unplaces (h := h) he hon ht
  · rw [hq, give_get_ne n b hw]
  · rw [hq, unplace_get_ne hw]

end

end

/-- The search of the list ends at the first entry with only clashing ones before it, and nowhere where all clash. -/
theorem assign_pass_takes_first_free_candidate : Clause.AssignPassTakesTheFirstFreeCandidate := by
  intro s h v p he hon ht
  refine ⟨fun before n after hlist hbusy hfree => ?_, fun primary rest hlist hbusy => ?_,
    fun w hw => assignVoice_get_ne he hon ht hw⟩
  · have hfirst : (s.candidatesFor h v).find? (fun t => !s.noteClashes p.taken 0 t) = some n :=
      List.find?_eq_some_iff_append.mpr
        ⟨by simp [State.noteClashes, hfree], before, after, hlist, fun m hm => by
          simp [State.noteClashes, hbusy m hm]⟩
    rw [assignVoice_of_first_free he hon ht hfirst]
    exact ⟨give_get_same n false, rfl, rfl⟩
  · have hnone : (s.candidatesFor h v).find? (fun t => !s.noteClashes p.taken 0 t) = none :=
      List.find?_eq_none.mpr fun m hm => by simp [State.noteClashes, hbusy m hm]
    rw [assignVoice_of_all_busy he hon ht hnone hlist]
    constructor
    · intro hdouble
      rw [if_pos hdouble]
      exact ⟨give_get_same primary true, rfl, rfl⟩
    · intro hwait
      rw [if_neg hwait]
      exact ⟨unplace_get_same, rfl, rfl⟩

/-! ### Both passes -/

theorem passes_take_each_voice_in_turn : Clause.PassesTakeEachVoiceInTurn := by
  refine ⟨fun s h v p => ⟨holdVoice_of_no_target, assignVoice_of_target, fun he hoff ht => ?_,
    fun he => ⟨holdVoice_of_disabled he, assignVoice_of_disabled he⟩⟩, fun _ _ => rfl⟩
  rw [assignVoice_of_off he hoff ht]
  exact ⟨rfl, rfl, Quad.get_set_same ..⟩

/-- Settles O21: each pass on one voice is its case of R113 to R116, and both run over the voices in index order. -/
theorem passesKeepThenAssign : Obligations.PassesKeepThenAssign :=
  ⟨hold_pass_keeps_free_candidates, assign_pass_takes_first_free_candidate, passes_take_each_voice_in_turn⟩

end Sys2Proof.VoicePasses

/-! PROOF. What the parts of a command leave alone. The invariants speak of the body of the machine: the ring, the
tracker, the follower, the scene in force, the stage map, the voices, the channels and the arbiter. The line controller,
the counters, the mixer, the claim records and the port's own counts lie outside it, and so do most parts of a command. -/

namespace Sys2Proof.Body

open Sys2Proof.Machine

/-- The body of t is that of s. -/
def SameBody (s t : State) : Prop :=
  t = { s with
    resetN := t.resetN, npt := t.npt
    audio := { t.audio with state := s.audio.state, fresh := s.audio.fresh }
    result := t.result
    scenes := { t.scenes with active := s.scenes.active }
    alloc := { t.alloc with voices := s.alloc.voices }
    mixer := t.mixer, line := t.line, counters := t.counters, owed := t.owed
    audioIn := t.audioIn, lineIn := t.lineIn, pending := t.pending }

theorem SameBody.refl (s : State) : SameBody s s := rfl

theorem SameBody.trans {s t u : State} (h : SameBody s t) (h' : SameBody t u) : SameBody s u := by
  refine Eq.trans h' ?_
  rw [h]

section
variable (s : State)

theorem sameBody_setLine (l : LineControl) : SameBody s (s.setLine l) := rfl

theorem sameBody_bump (k : Counter) : SameBody s (s.bump k) := rfl

theorem sameBody_bumpTimes (k : Counter) (n : Nat) : SameBody s (State.bumpTimes k n s) := by
  rw [State.bumpTimes_eq]
  rfl

theorem sameBody_owed (l : List Owed) : SameBody s { s with owed := l } := rfl

theorem sameBody_keepRecord (r : ClaimRecord) : SameBody s (s.keepRecord r) := rfl

theorem sameBody_placeRecord : SameBody s s.placeRecord := rfl

theorem sameBody_sendTest : SameBody s s.sendTest := by
  unfold State.sendTest
  split <;> rfl

theorem sameBody_countDecision : SameBody s s.countDecision := rfl

theorem sameBody_recordDecision : SameBody s s.recordDecision := rfl

/-! ### The line -/

theorem sameBody_takeFrameStart : SameBody s s.takeFrameStart := by
  unfold State.takeFrameStart
  split <;> rfl

theorem sameBody_takeStartBit : SameBody s s.takeStartBit := by
  unfold State.takeStartBit
  split <;> rfl

theorem sameBody_appendChar (c : Byte) (l : List Byte) (p : Pos) (b : Bool) : SameBody s (s.appendChar c l p b) := by
  unfold State.appendChar
  split <;> rfl

theorem sameBody_takeChar (c : Byte) : SameBody s (s.takeChar c) := by
  unfold State.takeChar
  split
  · exact (sameBody_setLine s _).trans (sameBody_appendChar _ _ _ _ _)
  all_goals rfl

theorem sameBody_takeReturnToMark : SameBody s s.takeReturnToMark := by
  unfold State.takeReturnToMark
  split <;> rfl

theorem sameBody_clashTest (i : StationId) (b : Bool) : SameBody s (s.clashTest i b) := by
  unfold State.clashTest
  split <;> rfl

theorem sameBody_route (p : Pos) (h : Byte) (l : List Byte) : SameBody s (s.route p h l) := by
  unfold State.route
  split <;> rfl

theorem sameBody_judge (l : List Byte) (p : Pos) (b : Bool) : SameBody s (s.judge l p b) := by
  unfold State.judge
  split
  · rfl
  · split
    · exact ((sameBody_setLine s _).trans (sameBody_clashTest _ _ _)).trans (sameBody_route _ _ _ _)
    · exact sameBody_bump s _

theorem sameBody_takeBoundary : SameBody s s.takeBoundary := by
  unfold State.takeBoundary State.endFrame
  split
  · split
    case h_2 => exact (sameBody_setLine s _).trans (sameBody_judge _ _ _ _)
    all_goals rfl
  · rfl

theorem sameBody_beginSend : SameBody s s.beginSend := by
  unfold State.beginSend
  split <;> rfl

theorem sameBody_collide (f : FrameInHand) : SameBody s (s.collide f) := by
  simp only [State.collide]
  repeat' first | rfl | split

theorem sameBody_endSendForBreak : SameBody s s.endSendForBreak := by
  unfold State.endSendForBreak
  split
  · exact sameBody_collide s _
  · rfl

theorem sameBody_reportSuccess (k : SlotContent) : SameBody s (s.reportSuccess k) := by
  unfold State.reportSuccess
  repeat' first | rfl | split

theorem sameBody_takeEcho (x : Option Byte) : SameBody s (s.takeEcho x) := by
  unfold State.takeEcho State.checkEcho
  split
  · split
    · split
      · rfl
      · simp only [State.sendSuccess]
        exact (sameBody_setLine s _).trans (sameBody_reportSuccess _ _)
    · exact sameBody_collide s _
  · rfl

end

/-! ### Properties of the body -/

/-- What must be shown of a property of the body for every step to keep it. -/
structure BodyKept (P : State → Prop) : Prop where
  congr : ∀ {s t : State}, SameBody s t → P s → P t
  perform : ∀ s o, (∀ a, o ≠ .accept a) → P s → P (State.perform o s)
  claim : ∀ s m, P s → P (s.acceptClaim m)
  scene : ∀ s sc, P s → P (s.sceneTakesEffect sc)
  bypassOn : ∀ s, P s → P s.bypassOn
  audioReturn : ∀ s, P s → P s.audioReturn
  loss : ∀ s, P s → P s.loseAudio
  segment : ∀ s, P s → P s.completeSegment
  expire : ∀ s, P s → P s.expireEntries
  fetch : ∀ s, P s → P s.completeFetch
  place : ∀ s, P s → P s.completePlace
  hush : ∀ s, P s → P s.hushListeners.hushRenderer.clearTargets
  released : ∀ s pins b l l' p, P s → P (State.released pins b l l' p)
  capture : ∀ s x, P s → P ((State.captureSample x s).trimMarks).positionDue

variable {P : State → Prop}

theorem BodyKept.switchScene (k : BodyKept P) {s : State} (h : P s) (p : Pos) (m : SceneMsg) :
    P (s.switchScene p m) := by
  unfold State.switchScene
  split
  · exact k.scene _ _ h
  · exact k.congr rfl h
  · split
    · exact k.scene _ _ h
    · exact k.congr rfl h

theorem BodyKept.acceptFrame (k : BodyKept P) {s : State} (h : P s) (a : Accepted) : P (s.acceptFrame a) := by
  cases a with
  | claim m => exact k.claim s m h
  | scene p m =>
    simp only [State.acceptFrame, State.acceptScene]
    split
    · refine k.switchScene ?_ p m
      split
      · exact k.congr (sameBody_bump s _) h
      · exact h
    · exact k.congr (sameBody_bump s _) h
  | bypassOn =>
    simp only [State.acceptFrame, State.acceptBypassOn]
    split
    · exact h
    · exact k.bypassOn s h
  | bypassOff => exact k.congr rfl h
  | query c => exact k.congr (sameBody_setLine s _) h

theorem BodyKept.performs (k : BodyKept P) {s : State} (h : P s) (o : Owed) : P (State.perform o s) := by
  cases o with
  | accept a => exact k.acceptFrame h a
  | leaveWarming | analysisTick | windowOverwrite | sceneDuePoint | fetchWithdrawal | placementPointDue | grainDrop
    | enteringRampFull | cycleStop => exact k.perform s _ nofun h

theorem BodyKept.takeHush (k : BodyKept P) {s : State} (h : P s) : P s.takeHush := by
  simp only [State.takeHush]
  have hended := k.congr ((sameBody_endSendForBreak s).trans (sameBody_bump _ .hush)) h
  have hbroken := k.congr (sameBody_setLine _ (LineControl.breakLine s.endSendForBreak.straps.id
    s.endSendForBreak.line)) hended
  have hhushed := k.hush _ hbroken
  exact k.congr (by rfl) hhushed

/-- A property of the body that the parts keep is kept by every step. -/
theorem BodyKept.keptByStep (k : BodyKept P) : KeptByStep P where
  perform s o _ h := k.performs (k.congr (sameBody_owed s _) h) o
  accept _ a h := k.acceptFrame h a
  sync s _ h := k.congr rfl (k.audioReturn s h)
  loss s _ h := k.loss s h
  segment s _ h := k.segment s h
  expire s _ h := k.expire s h
  fetch s _ h := k.fetch s h
  place s _ h := k.place s h
  frameStart s h := k.congr (sameBody_takeFrameStart s) h
  startBit s h := k.congr (sameBody_takeStartBit s) h
  char s c h := k.congr (sameBody_takeChar s c) h
  returnToMark s h := k.congr (sameBody_takeReturnToMark s) h
  boundary s h := k.congr (sameBody_takeBoundary s) h
  hush _ h := k.takeHush h
  idle s _ _ h := k.congr (sameBody_setLine s _) h
  send s h := k.congr (sameBody_beginSend s) h
  echo s x h := k.congr (sameBody_takeEcho s x) h
  hear s _ _ h := k.congr (sameBody_setLine s _) h
  bits s _ _ h := k.congr (sameBody_setLine s _) h
  space s h := k.congr (sameBody_setLine s _) h
  spaceRun s _ _ h := k.congr (sameBody_setLine s _) h
  pending _ _ h := k.congr rfl h
  assert s h := by
    have hreset := k.released s s.straps true s.audioIn s.lineIn s.pending h
    exact k.congr (by rfl) hreset
  release s _ _ h := k.released s _ _ _ _ _ h
  audioIn _ _ h := k.congr rfl h
  lineIn _ _ h := k.congr rfl h
  fall _ _ h := k.congr rfl h
  bit _ _ _ _ h := k.congr rfl h
  arrival s x _ h := k.congr (sameBody_owed _ _) (k.capture s x h)
  tick _ _ _ h := k.congr rfl h

/-! ### Properties that the grain cycle does not touch -/

/-- What must be shown of a property of the body that the moves of the grain cycle keep (R138, R141, R142). -/
structure CycleBlind (P : State → Prop) : Prop where
  congr : ∀ {s t : State}, SameBody s t → P s → P t
  cycle : ∀ {s t : State}, s.CycleMoved t → P s → P t
  tracker : ∀ s tr, s.tracker ≠ .absent → tr ≠ .absent → tr.quiet = false → P s → P { s with tracker := tr }
  rampFull : ∀ s v, (s.channel v).state = .entering → P s →
    P (s.setChannel v { s.channel v with state := .sounding })
  stop : ∀ s v, (s.channel v).state = .leaving → P s → P (s.setChannel v ((s.channel v).stopped (s.ruleOff v)))
  claim : ∀ s m, P s → P (s.acceptClaim m)
  sceneVoices : ∀ s sc, P s → P (({ s with scenes := { s.scenes with active := sc } } : State).forVoices State.sceneVoice)
  bypassOn : ∀ s, P s → P s.bypassOn
  audioReturn : ∀ s, P s → P s.audioReturn
  loss : ∀ s, P s → P s.loseAudio
  complete : ∀ s a r, s.tracker = .analysing a → runSegment s.npt (analysisWindow s.ring a.tick) a = .ends r →
    P s → P (s.completeAnalysis r)
  expire : ∀ s, P s → P s.expireEntries
  grain : ∀ s v g p, P s → P (s.placeGrain v g p)
  hush : ∀ s, P s → P s.hushListeners.hushRenderer.clearTargets
  released : ∀ s pins b l l' p, P s → P (State.released pins b l l' p)
  capture : ∀ s x, P s → P ((State.captureSample x s).trimMarks).positionDue

theorem CycleBlind.arbiter (k : CycleBlind P) {s : State} (h : P s) (a : Arbiter) : P { s with arbiter := a } :=
  k.cycle (s.cycleMoved_arbiter a) h

theorem CycleBlind.abandonAnalysis (k : CycleBlind P) {s : State} (h : P s) : P s.abandonAnalysis := by
  unfold State.abandonAnalysis
  split
  · next a ha => exact k.arbiter (k.tracker s .waiting (by simp [ha]) nofun rfl h) _
  · exact h

theorem CycleBlind.scene (k : CycleBlind P) {s : State} (h : P s) (sc : Scene) : P (s.sceneTakesEffect sc) := by
  have hpending : P { s with scenes := { s.scenes with pending := none } } := k.congr (by rfl) h
  unfold State.sceneTakesEffect State.abandonAnalysis
  split
  · next a ha =>
      exact k.sceneVoices { s with
          scenes := { s.scenes with pending := none }, tracker := .waiting, arbiter := s.arbiter.withdrawAnalysis } sc
        (k.arbiter (k.tracker _ .waiting (by simp [show s.tracker = _ from ha]) nofun rfl hpending) _)
  · exact k.sceneVoices { s with scenes := { s.scenes with pending := none } } sc hpending

theorem CycleBlind.leaveWarming (k : CycleBlind P) {s : State} (h : P s) : P s.leaveWarming := by
  unfold State.leaveWarming
  split
  · next hs =>
      split
      · exact k.tracker s .waiting (by simp [hs]) nofun rfl h
      · exact h
  · exact h

theorem CycleBlind.takeTick (k : CycleBlind P) {s : State} (h : P s) : P s.takeTick := by
  unfold State.takeTick
  split
  · exact h
  · exact h
  · next hs => exact k.arbiter (k.tracker s (.analysing _) (by simp [hs]) nofun rfl h) _
  · exact k.congr (sameBody_bump s _) h

theorem CycleBlind.overwriteWindow (k : CycleBlind P) {s : State} (h : P s) : P s.overwriteWindow := by
  unfold State.overwriteWindow
  split
  · split
    · exact k.congr (sameBody_bump _ _) (k.abandonAnalysis h)
    · exact h
  · exact h

theorem CycleBlind.takeDueScene (k : CycleBlind P) {s : State} (h : P s) : P s.takeDueScene := by
  unfold State.takeDueScene
  split
  · split
    · split
      · exact k.scene h _
      · exact h
    · exact h
  · exact h

theorem CycleBlind.takeRestScene (k : CycleBlind P) {s : State} (h : P s) : P s.takeRestScene := by
  unfold State.takeRestScene
  split
  · split
    · exact k.scene h _
    · exact h
  · exact h

theorem CycleBlind.takeRampFull (k : CycleBlind P) {s : State} (h : P s) (v : Voice) : P (s.rampFull v) := by
  simp only [State.rampFull]
  split
  · next hs =>
      split
      · exact k.rampFull s v hs h
      · exact h
  · exact h

theorem CycleBlind.stopCycle (k : CycleBlind P) {s : State} (h : P s) (v : Voice) : P (s.stopCycle v) := by
  simp only [State.stopCycle]
  split
  · next hs =>
      split
      · exact k.stop { s with arbiter := _ } v hs (k.arbiter h _)
      · exact h
  · exact h

theorem CycleBlind.perform (k : CycleBlind P) {s : State} (h : P s) (o : Owed) (ho : ∀ a, o ≠ .accept a) :
    P (State.perform o s) := by
  cases o with
  | leaveWarming => exact k.leaveWarming h
  | analysisTick => exact k.takeTick h
  | windowOverwrite => exact k.overwriteWindow h
  | sceneDuePoint => exact k.takeDueScene h
  | fetchWithdrawal v => exact k.cycle (s.cycleMoved_withdrawOverwritten v) h
  | placementPointDue v => exact k.cycle (s.cycleMoved_placementPointDue v) h
  | grainDrop v => exact k.cycle (s.cycleMoved_dropGrain v) h
  | enteringRampFull v => exact k.takeRampFull h v
  | cycleStop v => exact k.stopCycle h v
  | accept a => exact absurd rfl (ho a)

theorem CycleBlind.completeSegment (k : CycleBlind P) {s : State} (h : P s) : P s.completeSegment := by
  unfold State.completeSegment
  split
  · refine k.cycle (State.cycleMoved_finishJob _) ?_
    split
    rotate_left
    · exact h
    unfold State.segmentDone
    split
    · next a ha =>
        split
        · split
          · exact k.arbiter (k.tracker s (.analysing _) (by simp [ha]) nofun rfl h) _
          · next r hr => exact k.complete s a r ha hr h
        · exact h
    · exact h
  · exact h

theorem CycleBlind.completeFetch (k : CycleBlind P) {s : State} (h : P s) : P s.completeFetch := by
  unfold State.completeFetch
  split
  · refine k.cycle (State.cycleMoved_finishJob _) ?_
    split
    · exact k.cycle (s.cycleMoved_fetchDone _ _ _) h
    · exact h
  · exact h

theorem CycleBlind.placeDone (k : CycleBlind P) {s : State} (h : P s) (v : Voice) (g : Grain) (p : Pos16) (f : Fate) :
    P (s.placeDone v g p f) := by
  cases f with
  | live => exact k.cycle (State.cycleMoved_advanceIfRunning _ v g) (k.grain s v g p h)
  | addsOnly => exact k.grain s v g p h
  | dropped => exact k.cycle (s.cycleMoved_advanceIfRunning v g) h
  | discarded => exact h

theorem CycleBlind.completePlace (k : CycleBlind P) {s : State} (h : P s) : P s.completePlace := by
  unfold State.completePlace
  split
  · exact k.cycle (State.cycleMoved_finishJob _) (k.placeDone h _ _ _ _)
  · exact h

theorem CycleBlind.bodyKept (k : CycleBlind P) : BodyKept P where
  congr := k.congr
  perform _ o ho h := k.perform h o ho
  claim := k.claim
  scene _ sc h := k.scene h sc
  bypassOn := k.bypassOn
  audioReturn := k.audioReturn
  loss := k.loss
  segment _ h := k.completeSegment h
  expire := k.expire
  fetch _ h := k.completeFetch h
  place _ h := k.completePlace h
  hush := k.hush
  released := k.released
  capture := k.capture

/-- A property of the body that the grain cycle keeps and the other parts too is kept by every step. -/
theorem CycleBlind.stepKeeps (k : CycleBlind P) {s t : State} (h : P s) (e : step s = .next t) : P t :=
  k.bodyKept.keptByStep.stepKeeps h e

end Sys2Proof.Body

/-! PROOF. What a decision touches (chapter 07): its postings go voice by voice, each to its own voice's allocation and
channel and to the job list, and nothing of the capture port, the ring or the mark list changes. -/

namespace Sys2Proof.Decision

open Sys2Proof.Machine Sys2Proof.Body

/-! ### One voice's part -/

/-- What the allocator holds for voice v, its channel and the arbiter alone have changed. -/
def OnVoice (v : Voice) (s t : State) : Prop :=
  t = { s with
    alloc := { s.alloc with voices := s.alloc.voices.set v (t.voice v) }
    channels := s.channels.set v (t.channel v)
    arbiter := t.arbiter }

theorem OnVoice.refl (v : Voice) (s : State) : OnVoice v s s := by
  simp [OnVoice, State.voice, State.channel]

theorem OnVoice.trans {v : Voice} {s t u : State} (h : OnVoice v s t) (h' : OnVoice v t u) : OnVoice v s u := by
  unfold OnVoice at h h'
  rw [h] at h'
  simpa [OnVoice] using h'

section
variable (s : State) (v : Voice)

theorem onVoice_setVoice (a : VoiceAlloc) : OnVoice v s (s.setVoice v a) := by
  simp [OnVoice, State.setVoice, State.voice, State.channel]

theorem onVoice_setChannel (c : Channel) : OnVoice v s (s.setChannel v c) := by
  simp [OnVoice, State.setChannel, State.voice, State.channel]

theorem onVoice_requestFetch (m : Mark) : OnVoice v s (s.requestFetch v m) := by
  unfold State.requestFetch
  split <;> simp [OnVoice, State.request, State.voice, State.channel]

theorem onVoice_startCycle (b : Bool) : OnVoice v s (s.startCycle v b) := by
  simp only [State.startCycle]
  split
  · exact (onVoice_setChannel s v _).trans (onVoice_requestFetch _ v _)
  · exact onVoice_setChannel s v _

theorem onVoice_postTarget (b : Bool) : OnVoice v s (s.postTarget v b) := by
  simp only [State.postTarget]
  split
  · exact .refl v s
  · exact onVoice_startCycle s v _
  · exact .refl v s
  · exact onVoice_setChannel s v _
  · exact onVoice_setChannel s v _
  · split
    · exact onVoice_setChannel s v _
    · exact onVoice_startCycle s v _

theorem onVoice_postVoiceNone : OnVoice v s (s.postVoiceNone v) :=
  (onVoice_setVoice s v _).trans (onVoice_setChannel _ v _)

theorem onVoice_postVoiceTarget (h p : Nat) (before : Option Nat) (t : Nat) :
    OnVoice v s (s.postVoiceTarget h p before v t) := by
  simp only [State.postVoiceTarget]
  split <;> exact (onVoice_setVoice s v _).trans (onVoice_postTarget _ v _)

theorem onVoice_postVoice (held : Option (Nat × Nat)) (before : Quad VoiceAlloc) :
    OnVoice v s (s.postVoice held before v) := by
  unfold State.postVoice
  split
  · split
    · exact onVoice_postVoiceTarget s v _ _ _ _
    · exact onVoice_postVoiceNone s v
  · exact .refl v s

theorem onVoice_sceneVoice : OnVoice v s (s.sceneVoice v) := by
  unfold State.sceneVoice
  split
  · split
    · exact (onVoice_setVoice s v _).trans (onVoice_setChannel _ v _)
    · exact onVoice_setChannel s v _
  · exact .refl v s

end

theorem OnVoice.voice_ne {v w : Voice} {s t : State} (h : OnVoice v s t) (hw : w ≠ v) : t.voice w = s.voice w := by
  rw [h]
  exact Quad.get_set_ne _ _ hw

theorem OnVoice.channel_ne {v w : Voice} {s t : State} (h : OnVoice v s t) (hw : w ≠ v) :
    t.channel w = s.channel w := by
  rw [h]
  exact Quad.get_set_ne _ _ hw

/-! ### Every voice in turn -/

/-- The allocator's voices, the channels and the arbiter alone have changed. -/
def OnVoices (s t : State) : Prop :=
  t = { s with alloc := { s.alloc with voices := t.alloc.voices }, channels := t.channels, arbiter := t.arbiter }

theorem OnVoices.trans {s t u : State} (h : OnVoices s t) (h' : OnVoices t u) : OnVoices s u := by
  refine Eq.trans h' ?_
  rw [h]

theorem OnVoice.onVoices {v : Voice} {s t : State} (h : OnVoice v s t) : OnVoices s t := by
  unfold OnVoice at h
  rw [OnVoices, h]

section
variable {f : Voice → State → State} (hf : ∀ v s, OnVoice v s (f v s))
include hf

theorem onVoices_forVoices (s : State) : OnVoices s (s.forVoices f) :=
  (((hf .v0 s).onVoices.trans (hf .v1 _).onVoices).trans (hf .v2 _).onVoices).trans (hf .v3 _).onVoices

/-- Each voice finds its own part as it was before the first: the part that it leaves is what it makes of that. -/
theorem forVoices_at (s : State) (v : Voice) : ∃ s', OnVoices s s' ∧ s'.voice v = s.voice v ∧
    s'.channel v = s.channel v ∧ (s.forVoices f).voice v = (f v s').voice v ∧
    (s.forVoices f).channel v = (f v s').channel v := by
  let s1 := f .v0 s
  let s2 := f .v1 s1
  let s3 := f .v2 s2
  have h0 : OnVoice .v0 s s1 := hf .v0 s
  have h1 : OnVoice .v1 s1 s2 := hf .v1 s1
  have h2 : OnVoice .v2 s2 s3 := hf .v2 s2
  have h3 : OnVoice .v3 s3 (s.forVoices f) := hf .v3 s3
  cases v with
  | v0 =>
    refine ⟨s, rfl, rfl, rfl, ?_, ?_⟩
    · rw [h3.voice_ne (by decide), h2.voice_ne (by decide), h1.voice_ne (by decide)]
    · rw [h3.channel_ne (by decide), h2.channel_ne (by decide), h1.channel_ne (by decide)]
  | v1 =>
    refine ⟨s1, h0.onVoices, h0.voice_ne (by decide), h0.channel_ne (by decide), ?_, ?_⟩
    · rw [h3.voice_ne (by decide), h2.voice_ne (by decide)]
    · rw [h3.channel_ne (by decide), h2.channel_ne (by decide)]
  | v2 =>
    refine ⟨s2, h0.onVoices.trans h1.onVoices, ?_, ?_, ?_, ?_⟩
    · rw [h1.voice_ne (by decide), h0.voice_ne (by decide)]
    · rw [h1.channel_ne (by decide), h0.channel_ne (by decide)]
    · rw [h3.voice_ne (by decide)]
    · rw [h3.channel_ne (by decide)]
  | v3 =>
    refine ⟨s3, (h0.onVoices.trans h1.onVoices).trans h2.onVoices, ?_, ?_, rfl, rfl⟩
    · rw [h2.voice_ne (by decide), h1.voice_ne (by decide), h0.voice_ne (by decide)]
    · rw [h2.channel_ne (by decide), h1.channel_ne (by decide), h0.channel_ne (by decide)]

end

/-! ### The whole decision -/

/-- The state in which a decision allocates: the follower has stepped, the map is drained, a scene that waited for rest
is in force, and the decision is counted (R111 steps 1 to 4). -/
def prepared (r : Reason) (s : State) : State :=
  ({ s with follower := followerStep r s.follower } : State).updateMap.takeRestScene.countDecision

/-- The state after the postings (R111 steps 5 and 6). -/
def posted (r : Reason) (s : State) : State := (prepared r s).allocate.postAll (prepared r s).alloc.voices

theorem takeDecision_eq (r : Reason) (s : State) : s.takeDecision r = (posted r s).recordDecision.sendTest := rfl

/-- The audio port, the ring, the clock and the marks are not among the parts that have changed. -/
def OnStation (s t : State) : Prop :=
  t = { s with
    tracker := t.tracker, follower := t.follower, scenes := t.scenes, claimQueue := t.claimQueue, map := t.map
    alloc := t.alloc, channels := t.channels, arbiter := t.arbiter, line := t.line, counters := t.counters }

theorem OnStation.trans {s t u : State} (h : OnStation s t) (h' : OnStation t u) : OnStation s u := by
  refine Eq.trans h' ?_
  rw [h]

theorem OnVoices.onStation {s t : State} (h : OnVoices s t) : OnStation s t := by
  unfold OnVoices at h
  rw [OnStation, h]

section
variable (s : State)

theorem onStation_bumpTimes (k : Counter) (n : Nat) : OnStation s (State.bumpTimes k n s) := by
  rw [State.bumpTimes_eq]
  rfl

theorem onStation_abandonAnalysis : OnStation s s.abandonAnalysis := by
  unfold State.abandonAnalysis
  split <;> rfl

theorem onStation_sceneTakesEffect (sc : Scene) : OnStation s (s.sceneTakesEffect sc) := by
  have hscene : OnStation s { s with scenes := { s.scenes with active := sc, pending := none } } := rfl
  exact (hscene.trans (onStation_abandonAnalysis _)).trans
    (onVoices_forVoices (fun v s => onVoice_sceneVoice s v) _).onStation

theorem onStation_takeRestScene : OnStation s s.takeRestScene := by
  unfold State.takeRestScene
  split
  · split
    · exact onStation_sceneTakesEffect s _
    · rfl
  · rfl

theorem onStation_expireEntries : OnStation s s.expireEntries :=
  .trans (t := { s with map := s.map.filter fun e => !e.expired }) rfl (onStation_bumpTimes _ _ _)

/-- The new map, the emptied queue, and EXPIRE (R98, R101, R102). -/
theorem updateMap_eq : s.updateMap = { s with
    map := (drainAndAge s.claimQueue s.map).filter fun e => !e.expired
    claimQueue := []
    counters := s.updateMap.counters } := by
  rw [State.updateMap, State.expireEntries, State.bumpTimes_eq]

theorem onStation_updateMap : OnStation s s.updateMap := by
  rw [OnStation, updateMap_eq]

/-- The voices after the passes, or cleared, and PARK (R112, R116). -/
theorem allocate_eq : s.allocate = { s with
    alloc := { s.alloc with voices := s.allocate.alloc.voices }, counters := s.allocate.counters } := by
  unfold State.allocate
  split
  · rw [State.bumpTimes_eq]
  · rfl

theorem onStation_allocate : OnStation s s.allocate := by
  rw [OnStation, allocate_eq]

theorem onStation_postAll (before : Quad VoiceAlloc) : OnStation s (s.postAll before) :=
  (onVoices_forVoices (fun v s => onVoice_postVoice s v _ _) s).onStation

theorem onStation_countDecision : OnStation s s.countDecision := rfl

theorem onStation_recordDecision : OnStation s s.recordDecision := rfl

theorem onStation_sendTest : OnStation s s.sendTest := by
  unfold State.sendTest
  split <;> rfl

theorem onStation_prepared (r : Reason) : OnStation s (prepared r s) := by
  have hfollow : OnStation s { s with follower := followerStep r s.follower } := rfl
  exact ((hfollow.trans (onStation_updateMap _)).trans (onStation_takeRestScene _)).trans
    (onStation_countDecision _)

theorem onStation_posted (r : Reason) : OnStation s (posted r s) :=
  ((onStation_prepared s r).trans (onStation_allocate _)).trans (onStation_postAll _ _)

/-- A decision touches the station's blocks behind the tracker alone (R111). -/
theorem onStation_takeDecision (r : Reason) : OnStation s (s.takeDecision r) :=
  ((onStation_posted s r).trans (onStation_recordDecision _)).trans (onStation_sendTest _)

/-- What follows the postings of a decision touches the claim records and the line alone (R111 steps 7 and 8). -/
theorem sameBody_takeDecision (r : Reason) : SameBody (posted r s) (s.takeDecision r) := by
  rw [takeDecision_eq]
  exact (sameBody_recordDecision _).trans (sameBody_sendTest _)

end

/-- Bypass-on clears every voice and posts "no target" to every enabled one (R69, R118, R123). -/
theorem sameBody_bypassOn (s : State) : SameBody
    { s with
      alloc := { s.alloc with voices := Quad.const clearedVoice }
      channels := Quad.ofFn fun v => if s.enabled v then (s.channel v).noTarget else s.channel v } s.bypassOn := by
  simp only [State.bypassOn, State.postNoTargets_eq]
  rfl

/-- A property of the body that steps 1 to 3 of a decision keep stands where it allocates. -/
theorem prepared_keeps {P : State → Prop} (congr : ∀ {s t : State}, SameBody s t → P s → P t)
    (scene : ∀ s sc, P s → P (s.sceneTakesEffect sc)) {s : State} {r : Reason}
    (h : P ({ s with follower := followerStep r s.follower } : State).updateMap) : P (prepared r s) := by
  refine congr (sameBody_countDecision _) ?_
  unfold State.takeRestScene
  split
  · split
    · exact scene _ _ h
    · exact h
  · exact h

end Sys2Proof.Decision

/-! PROOF. A law of each voice channel: one that looks at the overlap buffer, the ramp count and the leave rate. Every
operation on a channel but three leaves these, or sets the leave rate to 1 or 4, or empties the channel. -/

namespace Sys2Proof.ChannelLaw

open Sys2Proof.Machine Sys2Proof.Body Sys2Proof.Decision

/-- The buffer and the ramp stay, and the leave rate stays or becomes 1 or 4. -/
def Restated (c d : Channel) : Prop :=
  d.overlap = c.overlap ∧ d.ramp = c.ramp ∧ (d.leaveRate = c.leaveRate ∨ d.leaveRate = 1 ∨ d.leaveRate = 4)

/-- The buffer is empty, the ramp at 0 and the leave rate 1. -/
def Emptied (d : Channel) : Prop := d.overlap = [] ∧ d.ramp = 0 ∧ d.leaveRate = 1

theorem restated_of_moved {posted : Option Nat} {c d : Channel} (h : c.Moved posted d) : Restated c d :=
  ⟨h.overlap, h.ramp, .inl h.leaveRate⟩

theorem restated_refl (c : Channel) : Restated c c := ⟨rfl, rfl, .inl rfl⟩

theorem restated_noTarget (c : Channel) : Restated c c.noTarget := by
  unfold Channel.noTarget
  split <;> first | exact restated_refl c | exact ⟨rfl, rfl, .inr (.inl rfl)⟩

theorem restated_sceneOff (c : Channel) : Restated c c.sceneOff := by
  unfold Channel.sceneOff
  split <;> first | exact restated_noTarget c | exact ⟨rfl, rfl, .inl rfl⟩

theorem restated_sceneOn (c : Channel) : Restated c c.sceneOn := by
  unfold Channel.sceneOn
  split <;> exact ⟨rfl, rfl, .inl rfl⟩

theorem restated_hush (c : Channel) : Restated c c.hush := by
  obtain ⟨hoverlap, hramp, -⟩ := restated_noTarget c
  unfold Channel.hush
  split
  · exact ⟨hoverlap, hramp, .inr (.inr rfl)⟩
  · exact restated_refl c

theorem emptied_silence (b : Bool) (c : Channel) : Emptied (c.silence b) := by
  unfold Channel.silence
  split <;> exact ⟨rfl, rfl, rfl⟩

/-- What must be shown of a law of each channel. -/
structure ChannelKept (C : Channel → Prop) : Prop where
  restated : ∀ {c d}, Restated c d → C c → C d
  emptied : ∀ {d}, Emptied d → C d
  grain : ∀ c g p k r, C c → C { c with overlap := addGrain c.overlap g p k, rampStart := r }
  passed : ∀ q c, C c → C (c.passPosition q)

/-- Every channel obeys the law. -/
def Lawful (C : Channel → Prop) (s : State) : Prop := ∀ v, C (s.channel v)

section
variable {C : Channel → Prop} (k : ChannelKept C) {s t : State}

theorem lawful_of_channels (e : t.channels = s.channels) (h : Lawful C s) : Lawful C t := fun v => by
  rw [State.channel, e]
  exact h v

theorem lawful_setChannel (h : Lawful C s) (v : Voice) {c : Channel} (hc : C c) : Lawful C (s.setChannel v c) :=
  fun w => by
    rw [State.channel_setChannel]
    split
    · exact hc
    · exact h w

theorem lawful_ofFn {f : Voice → Channel} (e : t.channels = Quad.ofFn f) (hf : ∀ v, C (f v)) : Lawful C t :=
  fun v => by
    rw [State.channel, e, Quad.get_ofFn]
    exact hf v

theorem lawful_forVoices {f : Voice → State → State} (hf : ∀ v s, Lawful C s → Lawful C (f v s)) (h : Lawful C s) :
    Lawful C (s.forVoices f) := hf _ _ (hf _ _ (hf _ _ (hf _ _ h)))

include k

theorem lawful_restated (h : Lawful C s) (v : Voice) {c : Channel} (hc : Restated (s.channel v) c) :
    Lawful C (s.setChannel v c) := lawful_setChannel h v (k.restated hc (h v))

theorem lawful_cycleMoved (m : s.CycleMoved t) (h : Lawful C s) : Lawful C t :=
  fun v => k.restated (restated_of_moved (m.2 v)) (h v)

theorem lawful_sceneVoice (v : Voice) (h : Lawful C s) : Lawful C (s.sceneVoice v) := by
  unfold State.sceneVoice
  split
  · split
    · exact lawful_restated k (lawful_of_channels (by rfl) h) v (restated_sceneOff _)
    · exact lawful_restated k h v (restated_sceneOn _)
  · exact h

/-- A cycle starts with an empty channel, or restarts with the ramp and the buffer that a LEAVING voice still has. -/
theorem lawful_startCycle (h : Lawful C s) (v : Voice) (b : Bool) : Lawful C (s.startCycle v b) := by
  have hstart : ∀ c : Channel, c.leaveRate = 1 → c.ramp = (if b then 0 else (s.channel v).ramp) →
      c.overlap = (if b then [] else (s.channel v).overlap) → C c := by
    intro c hrate hramp hoverlap
    cases b with
    | true => exact k.emptied ⟨hoverlap, hramp, hrate⟩
    | false => exact k.restated ⟨hoverlap, hramp, .inr (.inl hrate)⟩ (h v)
  simp only [State.startCycle]
  split
  · exact lawful_cycleMoved k (State.cycleMoved_requestFetch _ v _) (lawful_setChannel h v (hstart _ rfl rfl rfl))
  · exact lawful_setChannel h v (hstart _ rfl rfl rfl)

theorem lawful_postTarget (h : Lawful C s) (v : Voice) (b : Bool) : Lawful C (s.postTarget v b) := by
  simp only [State.postTarget]
  split
  · exact h
  · exact lawful_startCycle k h v true
  · exact h
  · exact lawful_restated k h v ⟨rfl, rfl, .inl rfl⟩
  · exact lawful_restated k h v ⟨rfl, rfl, .inl rfl⟩
  · split
    · exact lawful_restated k h v ⟨rfl, rfl, .inr (.inl rfl)⟩
    · exact lawful_startCycle k h v false

theorem lawful_postNoTarget (h : Lawful C s) (v : Voice) : Lawful C (s.postNoTarget v) :=
  lawful_restated k h v (restated_noTarget _)

theorem lawful_postVoice (h : Lawful C s) (held : Option (Nat × Nat)) (before : Quad VoiceAlloc) (v : Voice) :
    Lawful C (s.postVoice held before v) := by
  unfold State.postVoice
  split
  · split
    · simp only [State.postVoiceTarget]
      split <;> exact lawful_postTarget k (lawful_of_channels (by rfl) h) v _
    · exact lawful_postNoTarget k (s := s.setVoice v _) (lawful_of_channels (by rfl) h) v
  · exact h

theorem lawful_sceneTakesEffect (h : Lawful C s) (sc : Scene) : Lawful C (s.sceneTakesEffect sc) := by
  refine lawful_forVoices (fun v _ => lawful_sceneVoice k v) (lawful_of_channels ?_ h)
  unfold State.abandonAnalysis
  split <;> rfl

theorem lawful_takeDecision (h : Lawful C s) (r : Reason) : Lawful C (s.takeDecision r) := by
  have congr : ∀ {s t : State}, SameBody s t → Lawful C s → Lawful C t :=
    fun e h => lawful_of_channels (by rw [e]) h
  have hprepared : Lawful C (prepared r s) :=
    prepared_keeps congr (fun _ sc h => lawful_sceneTakesEffect k h sc)
      (lawful_of_channels (by rw [updateMap_eq]) h)
  have hallocate : Lawful C (prepared r s).allocate := lawful_of_channels (by rw [allocate_eq]) hprepared
  exact congr (sameBody_takeDecision s r) (lawful_forVoices (fun v _ h => lawful_postVoice k h _ _ v) hallocate)

theorem lawful_cycleBlind : CycleBlind (Lawful C) where
  congr e h := lawful_of_channels (by rw [e]) h
  cycle m h := lawful_cycleMoved k m h
  tracker _ _ _ _ _ h := h
  rampFull _ v _ h := lawful_restated k h v ⟨rfl, rfl, .inl rfl⟩
  stop _ v _ h := lawful_setChannel h v (k.emptied ⟨rfl, rfl, rfl⟩)
  claim s m h := by
    refine lawful_of_channels ?_ h
    unfold State.acceptClaim
    repeat' first | rfl | split
  sceneVoices _ _ h := lawful_forVoices (fun v _ => lawful_sceneVoice k v) h
  bypassOn s h := by
    rw [sameBody_bypassOn s]
    intro v
    simp only [State.channel, Quad.get_ofFn]
    split
    · exact k.restated (restated_noTarget _) (h v)
    · exact h v
  audioReturn s h := by
    refine lawful_of_channels ?_ h
    unfold State.audioReturn
    split <;> rfl
  loss _ _ := lawful_ofFn rfl fun _ => k.emptied (emptied_silence _ _)
  complete s _ r _ _ h := lawful_takeDecision k (s := s.writeResult r) h r.reason
  expire s h := by
    refine lawful_of_channels ?_ h
    rw [State.expireEntries, State.bumpTimes_eq]
  grain _ v _ _ h := lawful_setChannel h v (k.grain _ _ _ _ _ (h v))
  hush s h := by
    have hlisten : Lawful C s.hushListeners := by
      refine lawful_of_channels ?_ h
      unfold State.hushListeners State.abandonAnalysis
      split <;> rfl
    exact lawful_ofFn rfl fun v => k.restated (restated_hush _) (hlisten v)
  released _ _ _ _ _ _ _ := fun v => by
    rw [State.channel, State.released, Quad.get_const]
    exact k.emptied ⟨rfl, rfl, rfl⟩
  capture s x h := by
    have htrim : Lawful C (State.captureSample x s).trimMarks := by
      refine lawful_of_channels ?_ h
      unfold State.trimMarks
      split <;> rfl
    exact lawful_ofFn rfl fun v => k.passed _ _ (htrim v)

/-- A law of each channel is kept by every step. -/
theorem lawful_step (h : Lawful C s) (e : step s = .next t) : Lawful C t := (lawful_cycleBlind k).stepKeeps h e

end

end Sys2Proof.ChannelLaw

/-! PROOF. The addressed stores (sections 1.4 and 8.1): the capture ring is written at a sample arrival alone, and every
write of a store keeps its canonical form. -/

namespace Sys2Proof.Stores

open Sys2Proof.Machine Sys2Proof.Body Sys2Proof.Decision Sys2Proof.ChannelLaw

/-- The canonical form of one overlap buffer. -/
def OverlapCanonical (c : Channel) : Prop := Cells.wf 0 c.overlap = true ∧ Cells.within 2048 c.overlap

theorem overlapCanonical_kept : ChannelKept OverlapCanonical where
  restated := by
    rintro c d ⟨hoverlap, -, -⟩ h
    rwa [OverlapCanonical, hoverlap]
  emptied := by
    rintro d ⟨hoverlap, -, -⟩
    rw [OverlapCanonical, hoverlap]
    exact ⟨rfl, nofun⟩
  grain c g p k r := fun ⟨hwf, hwithin⟩ => ⟨wf_addGrain g p k hwf, within_addGrain g p k hwithin⟩
  passed := by
    rintro q c ⟨hwf, hwithin⟩
    have hfreed : OverlapCanonical { c with overlap := writeOverlap c.overlap q 0 } :=
      ⟨wf_writeOverlap q 0 hwf, within_writeOverlap q 0 hwithin⟩
    have hramp : (c.passPosition q).overlap = writeOverlap c.overlap q 0 := by
      unfold Channel.passPosition Channel.advanceRamp
      repeat' first | rfl | split
    rwa [OverlapCanonical, hramp]

/-- The ring is written where a sample is captured, and emptied at a reset. -/
theorem ringCanonical_cycleBlind : CycleBlind State.ringCanonical where
  congr e h := by rw [e]; exact h
  cycle m h := by rw [m.1.1]; exact h
  tracker _ _ _ _ _ h := h
  rampFull _ _ _ h := h
  stop _ _ _ h := h
  claim s m h := by
    unfold State.acceptClaim
    repeat' first | exact h | split
  sceneVoices s sc h := by
    rw [onVoices_forVoices (fun v s => onVoice_sceneVoice s v) _]
    exact h
  bypassOn s h := by
    rw [sameBody_bypassOn s]
    exact h
  audioReturn s h := by
    unfold State.audioReturn
    split <;> exact h
  loss _ h := h
  complete s _ r _ _ h := by
    rw [State.completeAnalysis, onStation_takeDecision]
    exact h
  expire s h := by
    rw [State.expireEntries, State.bumpTimes_eq]
    exact h
  grain _ _ _ _ h := h
  hush s h := by
    unfold State.hushListeners State.abandonAnalysis
    split <;> exact h
  released _ _ _ _ _ _ _ := ⟨rfl, nofun⟩
  capture s x h := by
    obtain ⟨hwf, hwithin⟩ := h
    have hwritten : (State.captureSample x s).ringCanonical :=
      ⟨wf_writeRing s.clock x hwf, within_writeRing s.clock x hwithin⟩
    unfold State.trimMarks
    split <;> exact hwritten

/-- Settles O49: the ring by its one writer, the overlap buffers as a law of each channel. -/
theorem storesStayCanonical : Obligations.StoresStayCanonical := by
  rintro s t ⟨hring, hoverlap⟩ e
  exact ⟨ringCanonical_cycleBlind.stepKeeps hring e, lawful_step overlapCanonical_kept hoverlap e⟩

end Sys2Proof.Stores

/-! PROOF. The claim queue and the stage map (chapter 06): the drain puts each queued claim's entry in its place of the
id order, and the queue and the map stay keyed by sender. -/

namespace Sys2Proof.Stage

open Sys2Proof.Machine Sys2Proof.Body Sys2Proof.Decision

/-! ### The items of a claim (R99, R100) -/

theorem noteInRange_iff {b : Byte} : noteInRange b = true ↔ 33 ≤ b.toNat ∧ b.toNat ≤ 93 := by
  simp [noteInRange, Config.lowNote, Config.highNote]

/-- The voice claim that a taken item becomes. -/
def peerOf (i : ClaimItem) : PeerVoice :=
  { voice := i.voice, note := i.note.toNat, age := i.age.toNat, doubled := i.doubled }

/-- One item taken where its note is in range and its index free, else dropped (R100). -/
theorem drainedVoices_concat (items : List ClaimItem) (i : ClaimItem) :
    drainedVoices (items ++ [i]) =
      if noteInRange i.note = true ∧ ∀ t ∈ drainedVoices items, t.voice ≠ i.voice then
        drainedVoices items ++ [peerOf i]
      else drainedVoices items := by
  rw [drainedVoices, List.foldl_append]
  change (if _ then _ else _) = _
  by_cases hnote : noteInRange i.note = true
  · by_cases hfree : ∀ t ∈ drainedVoices items, t.voice ≠ i.voice
    · rw [if_neg (by simp [hnote]), if_neg (by simpa [drainedVoices] using hfree), if_pos ⟨hnote, hfree⟩]
      rfl
    · rw [if_neg (by simp [hnote]), if_pos (by simpa [drainedVoices] using hfree), if_neg fun h => hfree h.2]
      rfl
  · rw [if_pos (by simp [hnote]), if_neg fun h => hnote h.1]
    rfl

theorem drainedVoices_sublist (items : List ClaimItem) :
    ∃ taken : List ClaimItem, taken.Sublist items ∧ drainedVoices items = taken.map peerOf := by
  induction items using List.reverseRecOn with
  | nil => exact ⟨[], .refl _, rfl⟩
  | append_singleton items i ih =>
    obtain ⟨taken, hsub, htaken⟩ := ih
    rw [drainedVoices_concat]
    split
    · exact ⟨taken ++ [i], hsub.append (.refl _), by simp [htaken]⟩
    · exact ⟨taken, hsub.trans (List.sublist_append_left _ _), htaken⟩

theorem drainedVoices_distinct (items : List ClaimItem) :
    (drainedVoices items).Pairwise fun a b => a.voice ≠ b.voice := by
  induction items using List.reverseRecOn with
  | nil => exact .nil
  | append_singleton items i ih =>
    rw [drainedVoices_concat]
    split
    · next h =>
        refine List.pairwise_append.2 ⟨ih, List.pairwise_singleton _ _, fun a ha b hb => ?_⟩
        rw [List.mem_singleton.1 hb]
        exact h.2 a ha
    · exact ih

/-- An index is taken by the first item in range that has it. -/
theorem drainedVoices_takes_index (items : List ClaimItem) (v : Voice) :
    (∃ t ∈ drainedVoices items, t.voice = v) ↔ ∃ x ∈ items, noteInRange x.note = true ∧ x.voice = v := by
  induction items using List.reverseRecOn with
  | nil => simp [drainedVoices]
  | append_singleton items i ih =>
    rw [drainedVoices_concat]
    split
    · next h =>
        simp only [List.mem_append, List.mem_singleton, or_and_right, exists_or, exists_eq_left, ih]
        simp [peerOf, h.1]
    · next h =>
        simp only [List.mem_append, List.mem_singleton, or_and_right, exists_or, exists_eq_left, ih]
        refine ⟨.inl, fun hv => hv.elim id fun ⟨hnote, hv⟩ => ih.1 ?_⟩
        by_contra hfree
        exact h ⟨hnote, fun t ht e => hfree ⟨t, ht, e.trans hv⟩⟩

theorem mem_drainedVoices (items : List ClaimItem) (c : PeerVoice) :
    c ∈ drainedVoices items ↔ ∃ before i after, items = before ++ i :: after ∧ c = peerOf i ∧
      noteInRange i.note = true ∧ ∀ x ∈ before, noteInRange x.note = true → x.voice ≠ i.voice := by
  induction items using List.reverseRecOn with
  | nil => simp [drainedVoices]
  | append_singleton items i ih =>
    have hfree : (∀ t ∈ drainedVoices items, t.voice ≠ i.voice) ↔
        ∀ x ∈ items, noteInRange x.note = true → x.voice ≠ i.voice := by
      have h := not_congr (drainedVoices_takes_index items i.voice)
      push Not at h
      exact h
    have hsplit : (∃ before j after, items ++ [i] = before ++ j :: after ∧ c = peerOf j ∧
          noteInRange j.note = true ∧ ∀ x ∈ before, noteInRange x.note = true → x.voice ≠ j.voice) ↔
        c ∈ drainedVoices items ∨ (c = peerOf i ∧ noteInRange i.note = true ∧
          ∀ x ∈ items, noteInRange x.note = true → x.voice ≠ i.voice) := by
      rw [ih]
      constructor
      · rintro ⟨before, j, after, he, hc⟩
        rcases List.eq_nil_or_concat after with rfl | ⟨after, k, rfl⟩
        · obtain ⟨rfl, hj⟩ := List.append_inj' he rfl
          obtain rfl : i = j := by simpa using hj
          exact .inr hc
        · rw [List.concat_eq_append, ← List.cons_append, ← List.append_assoc] at he
          exact .inl ⟨before, j, after, (List.append_inj' he rfl).1, hc⟩
      · rintro (⟨before, j, after, rfl, hc⟩ | hc)
        · exact ⟨before, j, after ++ [i], by simp, hc⟩
        · exact ⟨items, i, [], rfl, hc⟩
    rw [hsplit, drainedVoices_concat, ← hfree]
    split
    · next h => rw [List.mem_append, List.mem_singleton, and_iff_left h]
    · next h => exact ⟨.inl, fun hc => hc.elim id fun hc => absurd hc.2 h⟩

theorem items_taken_in_order : Clause.ItemsAreTakenInTheirOrder := by
  intro items peer
  refine ⟨drainedVoices_sublist items, drainedVoices_distinct items, fun c => ?_⟩
  rw [mem_drainedVoices]
  simp only [noteInRange_iff, and_imp, and_assoc]
  rfl

/-! ### The entries in id order (R98; log 20) -/

/-- The order in which the map is kept. -/
def InIdOrder (map : List PeerEntry) : Prop := map.Pairwise fun a b => a.id.toNat < b.id.toNat

theorem mem_putEntry {e y : PeerEntry} {map : List PeerEntry} (h : InIdOrder map) :
    y ∈ putEntry e map ↔ y = e ∨ (y ∈ map ∧ y.id ≠ e.id) := by
  induction map with
  | nil => simp [putEntry]
  | cons x rest ih =>
    obtain ⟨hx, hrest⟩ := List.pairwise_cons.1 h
    simp only [putEntry]
    split
    · next hlt =>
        have hne : ∀ y ∈ x :: rest, y.id ≠ e.id := by
          rintro y hy heq
          rcases List.mem_cons.1 hy with rfl | hy
          · rw [heq] at hlt; omega
          · have := hx y hy; rw [heq] at this; omega
        exact ⟨fun hy => (List.mem_cons.1 hy).imp_right fun hy => ⟨hy, hne y hy⟩,
          fun hy => List.mem_cons.2 (hy.imp_right And.left)⟩
    · split
      · next heq =>
          have hne : ∀ y ∈ rest, y.id ≠ e.id := fun y hy hid => by
            have := hx y hy
            rw [hid, heq] at this
            omega
          simp only [List.mem_cons]
          refine or_congr_right ⟨fun hy => ⟨.inr hy, hne y hy⟩, ?_⟩
          rintro ⟨rfl | hy, hid⟩
          · exact absurd heq.symm hid
          · exact hy
      · next hne =>
          simp only [List.mem_cons, ih hrest]
          constructor
          · rintro (rfl | hy | ⟨hy, hid⟩)
            · exact .inr ⟨.inl rfl, Ne.symm hne⟩
            · exact .inl hy
            · exact .inr ⟨.inr hy, hid⟩
          · rintro (rfl | ⟨rfl | hy, hid⟩)
            · exact .inr (.inl rfl)
            · exact .inl rfl
            · exact .inr (.inr ⟨hy, hid⟩)

theorem inIdOrder_putEntry (e : PeerEntry) {map : List PeerEntry} (h : InIdOrder map) : InIdOrder (putEntry e map) := by
  induction map with
  | nil => exact List.pairwise_singleton _ _
  | cons x rest ih =>
    obtain ⟨hx, hrest⟩ := List.pairwise_cons.1 h
    simp only [putEntry]
    split
    · next hlt =>
        refine List.pairwise_cons.2 ⟨fun y hy => ?_, h⟩
        rcases List.mem_cons.1 hy with rfl | hy
        · exact hlt
        · exact hlt.trans (hx y hy)
    · split
      · next heq => exact List.pairwise_cons.2 ⟨fun y hy => by rw [heq]; exact hx y hy, hrest⟩
      · next hge hne =>
          refine List.pairwise_cons.2 ⟨fun y hy => ?_, ih hrest⟩
          rcases (mem_putEntry hrest).1 hy with rfl | ⟨hy, -⟩
          · have : y.id.toNat ≠ x.id.toNat := fun h => hne (BitVec.eq_of_toNat_eq h)
            omega
          · exact hx y hy

theorem inIdOrder_drainQueue (queue : List ClaimMsg) {map : List PeerEntry} (h : InIdOrder map) :
    InIdOrder (drainQueue queue map) := by
  induction queue generalizing map with
  | nil => exact h
  | cons m queue ih => exact ih (inIdOrder_putEntry _ h)

/-- No two claims of one sender. -/
def DistinctSenders (queue : List ClaimMsg) : Prop := queue.Pairwise fun a b => a.sender ≠ b.sender

/-- The map after the drain: the queued claims' entries, and those of which no sender is queued (R98). -/
theorem mem_drainQueue {queue : List ClaimMsg} {map : List PeerEntry} {y : PeerEntry} (hq : DistinctSenders queue)
    (hm : InIdOrder map) : y ∈ drainQueue queue map ↔
      (∃ m ∈ queue, y = drainedEntry m) ∨ (y ∈ map ∧ ∀ m ∈ queue, m.sender ≠ y.id) := by
  induction queue generalizing map with
  | nil => simp [drainQueue]
  | cons m queue ih =>
    obtain ⟨hne, hq⟩ := List.pairwise_cons.1 hq
    rw [show drainQueue (m :: queue) map = drainQueue queue (putEntry (drainedEntry m) map) from rfl,
      ih hq (inIdOrder_putEntry _ hm), mem_putEntry hm]
    simp only [List.mem_cons, exists_eq_or_imp, forall_eq_or_imp]
    constructor
    · rintro (hy | ⟨rfl | ⟨hy, hid⟩, hothers⟩)
      · exact .inl (.inr hy)
      · exact .inl (.inl rfl)
      · exact .inr ⟨hy, Ne.symm hid, hothers⟩
    · rintro ((rfl | hy) | ⟨hy, hid, hothers⟩)
      · exact .inr ⟨.inl rfl, fun d hd => Ne.symm (hne d hd)⟩
      · exact .inl hy
      · exact .inr ⟨.inr ⟨hy, Ne.symm hid⟩, hothers⟩

theorem refreshedBy_iff {queue : List ClaimMsg} {e : PeerEntry} :
    refreshedBy queue e = true ↔ ∃ m ∈ queue, m.sender = e.id := by
  simp [refreshedBy]

/-- After drain and aging: fresh entries as the claims give them, the others one decision older (R98, R101, R102). -/
theorem mem_drainAndAge {queue : List ClaimMsg} {map : List PeerEntry} {e : PeerEntry} (hq : DistinctSenders queue)
    (hm : InIdOrder map) : e ∈ drainAndAge queue map ↔
      (∃ m ∈ queue, e = drainedEntry m) ∨ ∃ x ∈ map, (∀ m ∈ queue, m.sender ≠ x.id) ∧ e = x.older := by
  simp only [drainAndAge, List.mem_map, mem_drainQueue hq hm]
  constructor
  · rintro ⟨x, ⟨m, hmem, rfl⟩ | ⟨hx, hunheard⟩, rfl⟩
    · rw [if_pos (refreshedBy_iff.2 ⟨m, hmem, rfl⟩)]
      exact .inl ⟨m, hmem, rfl⟩
    · rw [if_neg fun h => (refreshedBy_iff.1 h).elim fun m hm => hunheard m hm.1 hm.2]
      exact .inr ⟨x, hx, hunheard, rfl⟩
  · rintro (⟨m, hmem, rfl⟩ | ⟨x, hx, hunheard, rfl⟩)
    · exact ⟨_, .inl ⟨m, hmem, rfl⟩, if_pos (refreshedBy_iff.2 ⟨m, hmem, rfl⟩)⟩
    · exact ⟨x, .inr ⟨hx, hunheard⟩,
        if_neg fun h => (refreshedBy_iff.1 h).elim fun m hm => hunheard m hm.1 hm.2⟩

theorem drainedLive_eq (b : Byte) :
    drainedLive b = if 33 ≤ b.toNat ∧ b.toNat ≤ 93 then some b.toNat else none := by
  simp only [drainedLive, noteInRange_iff]

theorem peerEntry_eq_iff {d e : PeerEntry} :
    e = d ↔ e.id = d.id ∧ e.silence = d.silence ∧ e.live = d.live ∧ e.voices = d.voices := by
  cases d
  cases e
  simp only [PeerEntry.mk.injEq]
  tauto

theorem drain_refreshes_and_ages : Clause.DrainRefreshesAndAgesEntries := by
  intro queue map e hq hm
  rw [mem_drainAndAge hq hm]
  simp only [peerEntry_eq_iff, drainedEntry, PeerEntry.older, drainedLive_eq]
  refine or_congr_right (exists_congr fun x => and_congr_right fun _ => and_congr_right fun _ =>
    and_congr_right fun _ => ?_)
  exact ⟨fun ⟨a, b, c⟩ => ⟨b, a, c⟩, fun ⟨b, a, c⟩ => ⟨a, b, c⟩⟩

/-! ### Expiry (R102) -/

theorem bumpTimes_expire (n : Nat) (s : State) (h : s.counters.expire ≤ 65535) :
    (State.bumpTimes .expire n s).counters =
      { s.counters with expire := min 65535 (s.counters.expire + n) } := by
  induction n generalizing s with
  | zero => rw [State.bumpTimes, Nat.add_zero, min_eq_right h]
  | succ n ih =>
    have hnext : (s.bump .expire).counters = { s.counters with expire := min 65535 (s.counters.expire + 1) } := by
      rw [State.bump_counters, Counters.bump, satSucc_eq_min _ h]
    rw [State.bumpTimes, ih _ (by rw [hnext]; exact min_le_left _ _), hnext]
    simp only [Counters.mk.injEq, and_true, true_and]
    omega

theorem not_expired_iff (e : PeerEntry) : (!e.expired) = decide (e.silence < 64) := by
  simp only [PeerEntry.expired, Config.expirySilence, ← decide_not, not_le]

theorem countP_expired (map : List PeerEntry) :
    map.countP PeerEntry.expired = (map.filter fun e => decide (64 ≤ e.silence)).length :=
  List.countP_eq_length_filter

theorem expireEntries_eq (s : State) (h : s.counters.expire ≤ 65535) : s.expireEntries = { s with
    map := s.map.filter fun e => decide (e.silence < 64)
    counters := { s.counters with
      expire := min 65535 (s.counters.expire + (s.map.filter fun e => decide (64 ≤ e.silence)).length) } } := by
  rw [State.expireEntries, State.bumpTimes_eq,
    bumpTimes_expire _ { s with map := s.map.filter fun e => !e.expired } h, countP_expired]
  simp only [not_expired_iff]

theorem silent_entries_expire : Clause.SilentEntriesExpire := by
  intro s hready h
  rw [← expireEntries_eq s h]
  exact whenReleased_settle hready State.expireEntries

/-- Settles O25: the drain by its place in the id order, the items by the one that comes last. -/
theorem entriesRefreshAgeAndExpire : Obligations.EntriesRefreshAgeAndExpire :=
  ⟨drain_refreshes_and_ages, items_taken_in_order, silent_entries_expire⟩

end Sys2Proof.Stage

/-! PROOF. The claim queue (section 6.1): an offered claim replaces its sender's, joins at the tail or is dropped; and the
law that queue and map stay keyed by sender. -/

namespace Sys2Proof.ClaimQueue

open Sys2Proof.Machine Sys2Proof.Body Sys2Proof.Decision Sys2Proof.Stage

/-! ### The acceptance of a claim (R93, R94, R95) -/

theorem wellFormed_iff {m : ClaimMsg} : m.wellFormed = true ↔ m.items.length ≤ 4 := decide_eq_true_iff

section
variable {s : State} {m : ClaimMsg}

theorem acceptClaim_of_malformed (h : 4 < m.items.length) : s.acceptClaim m = s.bump .badFrame := by
  have hbad : m.wellFormed = false := by simpa [ClaimMsg.wellFormed] using h
  simp [State.acceptClaim, hbad]

theorem acceptClaim_of_own (h : m.items.length ≤ 4) (hown : m.sender = s.straps.id) : s.acceptClaim m = s := by
  simp [State.acceptClaim, wellFormed_iff.2 h, hown]

section Peer
variable (h : m.items.length ≤ 4) (hpeer : m.sender ≠ s.straps.id)
include h hpeer

theorem acceptClaim_of_offered {q : List ClaimMsg} (hoffer : offerClaim s.claimQueue m = some q) :
    s.acceptClaim m = { s with claimQueue := q } := by
  simp [State.acceptClaim, wellFormed_iff.2 h, hpeer, hoffer]

theorem acceptClaim_of_full (hoffer : offerClaim s.claimQueue m = none) : s.acceptClaim m = s.bump .inboxDrop := by
  simp [State.acceptClaim, wellFormed_iff.2 h, hpeer, hoffer]

end Peer

/-- In a ready state a CLAIM is accepted and nothing else happens. -/
theorem exec_claim (hready : s.ready) (m : ClaimMsg) : exec (.claim m) s = .next (s.acceptClaim m) := by
  obtain ⟨hreset, howed⟩ := hready
  simp [exec, execClaim, whenReleased, hreset, State.takeAccepted, howed, State.settle_of_nil howed, State.acceptFrame]

end

theorem offerClaim_of_queued {queue : List ClaimMsg} {m : ClaimMsg} (h : ∃ q ∈ queue, q.sender = m.sender) :
    offerClaim queue m = some (queue.map fun q => if q.sender = m.sender then m else q) := by
  rw [offerClaim, if_pos (by simpa using h)]

theorem offerClaim_of_new {queue : List ClaimMsg} {m : ClaimMsg} (h : ∀ q ∈ queue, q.sender ≠ m.sender) :
    offerClaim queue m = if queue.length < 8 then some (queue ++ [m]) else none := by
  rw [offerClaim, if_neg (by simpa using h)]

theorem claim_replaces_queued : Clause.ClaimReplacesItsSendersQueuedClaim := by
  intro m s before after q hready hlength hpeer hqueue hsender hothers
  have hoffer : offerClaim s.claimQueue m = some (before ++ m :: after) := by
    rw [offerClaim_of_queued ⟨q, by simp [hqueue], hsender⟩, hqueue]
    have hkeep : ∀ l : List ClaimMsg, (∀ x ∈ l, x.sender ≠ m.sender) →
        (l.map fun q => if q.sender = m.sender then m else q) = l := fun l hl =>
      (List.map_congr_left fun x hx => if_neg (hl x hx)).trans (List.map_id' l)
    rw [List.map_append, List.map_cons, if_pos hsender,
      hkeep before fun x hx => hothers x (List.mem_append_left _ hx),
      hkeep after fun x hx => hothers x (List.mem_append_right _ hx)]
  rw [exec_claim hready, acceptClaim_of_offered hlength hpeer hoffer]

theorem new_claim_joins_or_is_dropped : Clause.ClaimFromNewSenderJoinsOrIsDropped := by
  intro m s hready hlength hpeer hnew hdrop
  have hoffer := offerClaim_of_new hnew
  refine ⟨fun hroom => ?_, fun hfull => ?_⟩
  · rw [exec_claim hready, acceptClaim_of_offered hlength hpeer (hoffer.trans (if_pos hroom))]
  · rw [exec_claim hready, acceptClaim_of_full hlength hpeer (hoffer.trans (if_neg (by omega))), State.bump,
      Counters.bump, satSucc_eq_min _ hdrop]

theorem own_or_malformed_not_queued : Clause.OwnOrMalformedClaimsAreNotQueued := by
  intro m s hready
  refine ⟨fun hlength hown => ?_, fun hlength hbad => ?_⟩
  · rw [exec_claim hready, acceptClaim_of_own hlength hown]
  · rw [exec_claim hready, acceptClaim_of_malformed hlength, State.bump, Counters.bump, satSucc_eq_min _ hbad]

/-- Settles O24: the three outcomes of an offered claim, and the claims that are not offered. -/
theorem claimIsMergedQueuedOrDropped : Obligations.ClaimIsMergedQueuedOrDropped :=
  ⟨claim_replaces_queued, new_claim_joins_or_is_dropped, own_or_malformed_not_queued⟩

/-! ### Queue and map stay keyed by sender -/

/-- The queue's part of the law, for a station with this id. -/
def QueueSound (own : StationId) (queue : List ClaimMsg) : Prop :=
  queue.length ≤ 8 ∧ DistinctSenders queue ∧ ∀ m ∈ queue, m.sender ≠ own ∧ m.items.length ≤ 4

/-- The map's part. -/
def MapSound (own : StationId) (map : List PeerEntry) : Prop :=
  InIdOrder map ∧ ∀ e ∈ map, e.id ≠ own ∧ e.sound

theorem stageKnown_iff {s : State} :
    s.stageKnown ↔ QueueSound s.straps.id s.claimQueue ∧ MapSound s.straps.id s.map := Iff.rfl

theorem queueSound_offer {own : StationId} {queue q : List ClaimMsg} {m : ClaimMsg} (hlength : m.items.length ≤ 4)
    (hpeer : m.sender ≠ own) (h : QueueSound own queue) (hoffer : offerClaim queue m = some q) : QueueSound own q := by
  obtain ⟨hsize, hdistinct, hsound⟩ := h
  by_cases hqueued : ∃ x ∈ queue, x.sender = m.sender
  · rw [offerClaim_of_queued hqueued, Option.some.injEq] at hoffer
    subst hoffer
    have hsame : ∀ x : ClaimMsg, (if x.sender = m.sender then m else x).sender = x.sender := fun x => by
      split
      · next h => exact h.symm
      · rfl
    refine ⟨by rwa [List.length_map], List.pairwise_map.2 ?_, fun x hx => ?_⟩
    · simp only [hsame]
      exact hdistinct
    · obtain ⟨y, hy, rfl⟩ := List.mem_map.1 hx
      split
      · exact ⟨hpeer, hlength⟩
      · exact hsound y hy
  · have hnew : ∀ x ∈ queue, x.sender ≠ m.sender := fun x hx e => hqueued ⟨x, hx, e⟩
    rw [offerClaim_of_new hnew] at hoffer
    split at hoffer
    · rw [Option.some.injEq] at hoffer
      subst hoffer
      refine ⟨by rw [List.length_append, List.length_singleton]; omega,
        List.pairwise_append.2 ⟨hdistinct, List.pairwise_singleton _ _, fun x hx y hy => ?_⟩, fun x hx => ?_⟩
      · rw [List.mem_singleton.1 hy]
        exact hnew x hx
      · rcases List.mem_append.1 hx with hx | hx
        · exact hsound x hx
        · rw [List.mem_singleton.1 hx]
          exact ⟨hpeer, hlength⟩
    · cases hoffer

theorem acceptClaim_stageKnown {s : State} (m : ClaimMsg) (h : s.stageKnown) : (s.acceptClaim m).stageKnown := by
  by_cases hlength : m.items.length ≤ 4
  · by_cases hown : m.sender = s.straps.id
    · rwa [acceptClaim_of_own hlength hown]
    · cases hoffer : offerClaim s.claimQueue m with
      | none => rw [acceptClaim_of_full hlength hown hoffer]; exact h
      | some q =>
        rw [acceptClaim_of_offered hlength hown hoffer]
        exact ⟨queueSound_offer hlength hown h.1 hoffer, h.2⟩
  · rw [acceptClaim_of_malformed (by omega)]
    exact h

/-! The entries of a decision (R97 to R102) -/

/-- A list of peers' claims with distinct indices has no more than there are voices. -/
theorem length_le_four_of_distinct {l : List PeerVoice} (h : l.Pairwise fun a b => a.voice ≠ b.voice) :
    l.length ≤ 4 := by
  have hsub : (l.map PeerVoice.voice).Subperm Voice.all :=
    List.Nodup.subperm (List.pairwise_map.2 h) fun v _ => Voice.mem_all v
  simpa [Voice.all] using hsub.length_le

theorem drainedEntry_sound (m : ClaimMsg) : (drainedEntry m).sound := by
  refine ⟨fun n hn => ?_, Nat.zero_le _, length_le_four_of_distinct (drainedVoices_distinct _),
    drainedVoices_distinct _, fun c hc => ?_⟩
  · rw [drainedEntry, drainedLive_eq] at hn
    split at hn
    · next h => exact Option.some.inj hn ▸ h
    · cases hn
  · obtain ⟨_, i, _, -, rfl, hnote, -⟩ := (mem_drainedVoices _ _).1 hc
    exact ⟨noteInRange_iff.1 hnote, Nat.le_of_lt_succ i.age.isLt⟩

/-- One decision older, an entry that has not expired is sound. -/
theorem older_sound {e : PeerEntry} (h : e.sound) (hlive : e.older.silence < 64) : e.older.sound := by
  obtain ⟨hnote, -, hcount, hdistinct, hclaims⟩ := h
  refine ⟨hnote, Nat.le_of_lt_succ hlive, by simpa [PeerEntry.older] using hcount, List.pairwise_map.2 hdistinct,
    fun c hc => ?_⟩
  obtain ⟨d, hd, rfl⟩ := List.mem_map.1 hc
  obtain ⟨hdnote, hage⟩ := hclaims d hd
  refine ⟨hdnote, ?_⟩
  simp only [PeerVoice.older, satSucc, Config.maxAge]
  split <;> omega

theorem inIdOrder_drainAndAge (queue : List ClaimMsg) {map : List PeerEntry} (h : InIdOrder map) :
    InIdOrder (drainAndAge queue map) := by
  have hid : ∀ e : PeerEntry, (if refreshedBy queue e then e else e.older).id = e.id := fun e => by
    split <;> rfl
  refine List.pairwise_map.2 ?_
  simp only [hid]
  exact inIdOrder_drainQueue queue h

theorem mapSound_update {own : StationId} {queue : List ClaimMsg} {map : List PeerEntry} (hq : QueueSound own queue)
    (hm : MapSound own map) : MapSound own ((drainAndAge queue map).filter fun e => !e.expired) := by
  obtain ⟨-, hdistinct, hpeers⟩ := hq
  obtain ⟨horder, hsound⟩ := hm
  refine ⟨(inIdOrder_drainAndAge queue horder).filter _, fun e he => ?_⟩
  obtain ⟨hmem, hexpired⟩ := List.mem_filter.1 he
  rw [not_expired_iff, decide_eq_true_iff] at hexpired
  rcases (mem_drainAndAge hdistinct horder).1 hmem with ⟨m, hmq, rfl⟩ | ⟨x, hx, -, rfl⟩
  · exact ⟨(hpeers m hmq).1, drainedEntry_sound m⟩
  · exact ⟨(hsound x hx).1, older_sound (hsound x hx).2 hexpired⟩

theorem updateMap_stageKnown {s : State} (h : s.stageKnown) : s.updateMap.stageKnown := by
  rw [updateMap_eq]
  exact ⟨⟨Nat.zero_le _, .nil, nofun⟩, mapSound_update h.1 h.2⟩

theorem sceneTakesEffect_stageKnown {s : State} (sc : Scene) (h : s.stageKnown) :
    (s.sceneTakesEffect sc).stageKnown := by
  rw [(s.sceneTakesEffect_taken sc).1]
  exact h

theorem stageKnown_congr {s t : State} (e : SameBody s t) (h : s.stageKnown) : t.stageKnown := by
  rw [e]
  exact h

theorem posted_stageKnown {s : State} {r : Reason} (h : s.stageKnown) : (posted r s).stageKnown := by
  have hprepared : (prepared r s).stageKnown :=
    prepared_keeps stageKnown_congr (fun _ sc h => sceneTakesEffect_stageKnown sc h)
      (updateMap_stageKnown h)
  rw [posted, State.postAll, onVoices_forVoices (fun v s => onVoice_postVoice s v _ _), allocate_eq]
  exact hprepared

theorem stageKnown_cycleBlind : CycleBlind State.stageKnown where
  congr := stageKnown_congr
  cycle m h := by rw [m.1.1]; exact h
  tracker _ _ _ _ _ h := h
  rampFull _ _ _ h := h
  stop _ _ _ h := h
  claim _ m h := acceptClaim_stageKnown m h
  sceneVoices s sc h := by
    rw [onVoices_forVoices (fun v s => onVoice_sceneVoice s v)]
    exact h
  bypassOn s h := by
    rw [sameBody_bypassOn s]
    exact h
  audioReturn s h := by
    unfold State.audioReturn
    split <;> exact h
  loss _ h := h
  complete s _ r _ _ h := stageKnown_congr (sameBody_takeDecision _ _) (posted_stageKnown (s := s.writeResult r) h)
  expire s h := by
    rw [State.expireEntries, State.bumpTimes_eq]
    exact ⟨h.1, h.2.1.filter _, fun e he => h.2.2 e (List.mem_filter.1 he).1⟩
  grain _ _ _ _ h := h
  hush _ _ := ⟨⟨Nat.zero_le _, .nil, nofun⟩, .nil, nofun⟩
  released _ _ _ _ _ _ _ := ⟨⟨Nat.zero_le _, .nil, nofun⟩, .nil, nofun⟩
  capture s x h := by
    unfold State.trimMarks
    split <;> exact h

/-- Settles O52: the queue by its three outcomes, the map by what a decision's drain leaves in it. -/
theorem stageStaysKeyedBySender : Obligations.StageStaysKeyedBySender :=
  fun _ _ h e => stageKnown_cycleBlind.stepKeeps h e

end Sys2Proof.ClaimQueue

/-! PROOF. The passes and the postings of a decision (chapter 07), said once for the laws of the voices: what a pass can do
to the voice it takes, and what becomes of that voice's state at its posting. -/

namespace Sys2Proof.PassLaws

open Sys2Proof.Machine Sys2Proof.Body Sys2Proof.Decision Sys2Proof.VoicePasses

section
variable {s : State} {h : Nat} {v w : Voice} {p : Passes}

/-! ### What a pass can do -/

/-- The hold pass leaves a voice, keeps it, or takes its target (R113). -/
theorem holdVoice_cases (s : State) (h : Nat) (v : Voice) (p : Passes) :
    ((s.enabled v = false ∨ (p.voices.get v).target = none) ∧ s.holdVoice h v p = p) ∨
    (∃ n, s.enabled v = true ∧ (p.voices.get v).target = some n ∧
      s.keepsVoice h p.taken v (p.voices.get v).age n = true ∧
      s.holdVoice h v p = { p with
        voices := p.voices.set v { p.voices.get v with
          age := satSucc Config.maxAge (p.voices.get v).age, doubled := false, unplaced := false }
        taken := n :: p.taken }) ∨
    (s.enabled v = true ∧ s.holdVoice h v p =
      { p with voices := p.voices.set v { p.voices.get v with target := none, age := 0, doubled := false } }) := by
  cases he : s.enabled v with
  | false => exact .inl ⟨.inl rfl, holdVoice_of_disabled he⟩
  | true =>
    cases ht : (p.voices.get v).target with
    | none => exact .inl ⟨.inr rfl, holdVoice_of_no_target ht⟩
    | some n =>
      rw [holdVoice_of_target he ht]
      split
      · next hk => exact .inr (.inl ⟨n, rfl, rfl, hk, rfl⟩)
      · exact .inr (.inr ⟨rfl, rfl⟩)

/-- The assign pass leaves a voice, clears one whose rule is OFF, gives it a candidate that no own voice holds, or lets
it wait (R114, R115, R116). -/
theorem assignVoice_cases (s : State) (h : Nat) (v : Voice) (p : Passes) :
    ((s.enabled v = false ∨ (p.voices.get v).target ≠ none) ∧ s.assignVoice h v p = p) ∨
    (s.enabled v = true ∧ (p.voices.get v).target = none ∧ s.assignVoice h v p =
      { p with voices := p.voices.set v { p.voices.get v with age := 0, doubled := false, unplaced := false } }) ∨
    (∃ n b, s.enabled v = true ∧ s.ruleOff v = false ∧ (p.voices.get v).target = none ∧
      n ∈ s.candidatesFor h v ∧ n ∉ p.taken ∧ s.assignVoice h v p = p.give v n b) ∨
    (s.enabled v = true ∧ (p.voices.get v).target = none ∧ s.assignVoice h v p = p.unplace v) := by
  cases he : s.enabled v with
  | false => exact .inl ⟨.inl rfl, assignVoice_of_disabled he⟩
  | true =>
    cases ht : (p.voices.get v).target with
    | some n => exact .inl ⟨.inr nofun, assignVoice_of_target (ht ▸ nofun)⟩
    | none =>
      by_cases hoff : (s.rule v).mode = .off
      · exact .inr (.inl ⟨rfl, rfl, assignVoice_of_off he hoff ht⟩)
      · have hon : s.ruleOff v = false := Bool.eq_false_iff.2 (mt ruleOff_iff.1 hoff)
        cases hlist : s.candidatesFor h v with
        | nil => exact .inr (.inr (.inr ⟨rfl, rfl, assignVoice_of_no_candidate he hoff ht hlist⟩))
        | cons primary rest =>
          cases hf : (s.candidatesFor h v).find? fun t => !s.noteClashes p.taken 0 t with
          | some n =>
            have hfree : n ∉ p.taken := fun hn => by
              have := List.find?_some hf
              rw [State.noteClashes, Occupation.clashes_iff.2 (.inr hn)] at this
              cases this
            exact .inr (.inr (.inl ⟨n, false, rfl, hon, rfl, hlist ▸ List.mem_of_find?_eq_some hf, hfree,
              assignVoice_of_first_free he hoff ht hf⟩))
          | none =>
            rw [assignVoice_of_all_busy he hoff ht hf hlist]
            split
            · next hd => exact .inr (.inr (.inl ⟨primary, true, rfl, hon, rfl, .head _, hd.2, rfl⟩))
            · exact .inr (.inr (.inr ⟨rfl, rfl, rfl⟩))

theorem holdVoice_get_ne (hw : w ≠ v) : (s.holdVoice h v p).voices.get w = p.voices.get w := by
  obtain ⟨-, e⟩ | ⟨n, -, -, -, e⟩ | ⟨-, e⟩ := holdVoice_cases s h v p
  · rw [e]
  · rw [e]; exact Quad.get_set_ne _ _ hw
  · rw [e]; exact Quad.get_set_ne _ _ hw

theorem assignVoice_get_other (hw : w ≠ v) : (s.assignVoice h v p).voices.get w = p.voices.get w := by
  obtain ⟨-, e⟩ | ⟨-, -, e⟩ | ⟨n, b, -, -, -, -, -, e⟩ | ⟨-, -, e⟩ := assignVoice_cases s h v p
  · rw [e]
  · rw [e]; exact Quad.get_set_ne _ _ hw
  · rw [e]; exact give_get_ne n b hw
  · rw [e]; exact unplace_get_ne hw

end

/-! ### Both passes -/

/-- The hold pass over every voice. -/
def heldPasses (s : State) (h : Nat) : Passes :=
  Voice.all.foldl (fun p v => s.holdVoice h v p) { voices := s.alloc.voices, taken := [], parks := 0 }

theorem runPasses_eq (s : State) (h : Nat) :
    s.runPasses h = Voice.all.foldl (fun p v => s.assignVoice h v p) (heldPasses s h) := rfl

/-- What a pass brings about at the voice it takes, and no later one spoils, holds of every voice that it has taken. -/
theorem foldl_brings {f : Passes → Voice → Passes} {T : Passes → Voice → Prop}
    (keep : ∀ p v w, T p v → T (f p w) v) (bring : ∀ p w, T (f p w) w) (l : List Voice) (p : Passes) {v : Voice}
    (hv : v ∈ l) : T (l.foldl f p) v := by
  induction l generalizing p with
  | nil => cases hv
  | cons w rest ih =>
    rcases List.mem_cons.1 hv with rfl | hv
    · exact List.foldlRecOn rest f (bring p v) fun q hq u _ => keep q v u hq
    · exact ih _ hv

section
variable {s : State} {h : Nat}

/-- What both passes keep at every voice holds at the end (disabled voices, ages). -/
theorem runPasses_keeps {T : Passes → Prop} (start : T { voices := s.alloc.voices, taken := [], parks := 0 })
    (hold : ∀ p v, T p → T (s.holdVoice h v p)) (assign : ∀ p v, T p → T (s.assignVoice h v p)) :
    T (s.runPasses h) :=
  List.foldlRecOn Voice.all _ (List.foldlRecOn Voice.all _ start fun p hp v _ => hold p v hp)
    fun p hp v _ => assign p v hp

/-- A disabled voice is taken by neither pass (R7). -/
theorem runPasses_disabled {v : Voice} (he : s.enabled v = false) : (s.runPasses h).voices.get v = s.voice v := by
  refine runPasses_keeps (T := fun p => p.voices.get v = s.voice v) rfl (fun p w hp => ?_) (fun p w hp => ?_)
  · by_cases hw : v = w
    · subst hw
      rwa [holdVoice_of_disabled he]
    · rwa [holdVoice_get_ne hw]
  · by_cases hw : v = w
    · subst hw
      rwa [assignVoice_of_disabled he]
    · rwa [assignVoice_get_other hw]

/-- The passes leave no target to a voice whose rule is OFF (R113, R114). -/
theorem runPasses_target_on {v : Voice} (he : s.enabled v = true)
    (ht : ((s.runPasses h).voices.get v).target ≠ none) : s.ruleOff v = false := by
  have hheld : ((heldPasses s h).voices.get v).target ≠ none → s.ruleOff v = false := by
    refine foldl_brings (T := fun p v => s.enabled v = true → (p.voices.get v).target ≠ none → s.ruleOff v = false)
      (fun p v w hp => ?_) (fun p w he => ?_) Voice.all _ (Voice.mem_all v) he
    · by_cases hw : v = w
      · subst hw
        intro he
        obtain ⟨-, e⟩ | ⟨n, -, hn, -, e⟩ | ⟨-, e⟩ := holdVoice_cases s h v p
        · rw [e]; exact hp he
        · exact fun _ => hp he (hn ▸ nofun)
        · rw [e, Quad.get_set_same]; exact fun ht => absurd rfl ht
      · rwa [holdVoice_get_ne hw]
    · obtain ⟨hd | hn, e⟩ | ⟨n, -, -, hk, -⟩ | ⟨-, e⟩ := holdVoice_cases s h w p
      · rw [he] at hd; cases hd
      · rw [e]; exact fun ht => absurd hn ht
      · exact fun _ => Bool.eq_false_iff.2 (mt ruleOff_iff.1 (keepsVoice_iff.1 hk).1)
      · rw [e, Quad.get_set_same]; exact fun ht => absurd rfl ht
  refine List.foldlRecOn (motive := fun p => (p.voices.get v).target ≠ none → s.ruleOff v = false) Voice.all
    (fun p v => s.assignVoice h v p) hheld (fun p hp w _ => ?_) ht
  by_cases hw : v = w
  · subst hw
    obtain ⟨-, e⟩ | ⟨-, hn, e⟩ | ⟨n, b, -, hon, -⟩ | ⟨-, hn, e⟩ := assignVoice_cases s h v p
    · rw [e]; exact hp
    · rw [e, Quad.get_set_same]; exact fun ht => absurd hn ht
    · exact fun _ => hon
    · rw [e, unplace_get_same]; exact fun ht => absurd hn ht
  · rwa [assignVoice_get_other hw]

end

/-! ### The state of a channel at a posting (R129) -/

theorem noTarget_state (c : Channel) : c.noTarget.state = if c.state.sounds then .leaving else c.state := by
  unfold Channel.noTarget
  cases h : c.state <;> simp [VoiceState.sounds, h]

theorem sceneOff_state (c : Channel) :
    c.sceneOff.state = if c.state = .parked then .off else if c.state.sounds then .leaving else c.state := by
  unfold Channel.sceneOff
  cases h : c.state <;> simp [VoiceState.sounds, noTarget_state, h]

theorem sceneOn_state (c : Channel) : c.sceneOn.state = if c.state = .off then .parked else c.state := by
  unfold Channel.sceneOn
  cases h : c.state <;> simp [h]

section
variable {s : State} {v : Voice}

theorem startCycle_state (b : Bool) : ((s.startCycle v b).channel v).state = .entering := by
  simp only [State.startCycle]
  split
  · rw [((State.cycleMoved_requestFetch _ v _).2 v).state, State.channel_setChannel_same]
  · rw [State.channel_setChannel_same]

/-- A target sounds the voice from every state but OFF. -/
theorem postTarget_sounds (b : Bool) (h : (s.channel v).state ≠ .off) :
    ((s.postTarget v b).channel v).state.sounds = true := by
  cases hs : (s.channel v).state with
  | off => exact absurd hs h
  | parked =>
    simp only [State.postTarget, hs, startCycle_state]
    rfl
  | entering =>
    simp only [State.postTarget, hs]
    rfl
  | sounding | gliding =>
    simp only [State.postTarget, hs, State.channel_setChannel_same]
    cases b <;> rfl
  | leaving =>
    simp only [State.postTarget, hs]
    split
    · rw [State.channel_setChannel_same]
      rfl
    · rw [startCycle_state]
      rfl

theorem postTarget_voice (b : Bool) (w : Voice) : (s.postTarget v b).voice w = s.voice w := by
  have hstart : ∀ (s : State) (b : Bool), (s.startCycle v b).voice w = s.voice w := fun s b => by
    simp only [State.startCycle]
    split
    · rw [State.CycleMoved.voice (State.cycleMoved_requestFetch _ v _).1, State.voice_setChannel]
    · rw [State.voice_setChannel]
  simp only [State.postTarget]
  split
  · rfl
  · exact hstart s _
  · rfl
  · rfl
  · rfl
  · split
    · rfl
    · exact hstart s _

theorem postVoiceNone_voice : (s.postVoiceNone v).voice v = { s.voice v with postedStep := none, glide := none } :=
  State.voice_setVoice_same v _ s

theorem postVoiceNone_channel : (s.postVoiceNone v).channel v = (s.channel v).noTarget :=
  State.channel_setChannel_same v _ _

/-! What a decision posts (R117). -/

theorem postVoice_of_disabled {held : Option (Nat × Nat)} {before : Quad VoiceAlloc} (he : s.enabled v = false) :
    s.postVoice held before v = s := by
  simp [State.postVoice, he]

theorem postVoice_of_no_target {held : Option (Nat × Nat)} {before : Quad VoiceAlloc} (he : s.enabled v = true)
    (ht : (s.voice v).target = none) : s.postVoice held before v = s.postVoiceNone v := by
  simp [State.postVoice, he, ht]

theorem postVoice_of_target {h p n : Nat} {before : Quad VoiceAlloc} (he : s.enabled v = true)
    (ht : (s.voice v).target = some n) :
    s.postVoice (some (h, p)) before v = s.postVoiceTarget h p (before.get v).target v n := by
  simp [State.postVoice, he, ht]

/-- A posting leaves the target itself (R117). -/
theorem postVoice_target (held : Option (Nat × Nat)) (before : Quad VoiceAlloc) :
    ((s.postVoice held before v).voice v).target = (s.voice v).target := by
  unfold State.postVoice
  split
  · split
    · simp only [State.postVoiceTarget]
      split <;> rw [postTarget_voice, State.voice_setVoice_same]
    · rw [postVoiceNone_voice]
  · rfl

end

end Sys2Proof.PassLaws

/-! PROOF. Voices, targets and rules in agreement (chapters 07 and 08): a law of each voice that links its target, the
state of its channel, and whether it is enabled and its rule is OFF. -/

namespace Sys2Proof.VoicesAgree

open Sys2Proof.Machine Sys2Proof.Body Sys2Proof.Decision Sys2Proof.PassLaws

/-! ### The law at one voice -/

/-- The law for a voice with these flags, this target and this state. -/
structure Agrees (enabled ruleOff : Bool) (target : Option Nat) (state : VoiceState) : Prop where
  disabled : enabled = false → state = .off ∧ target = none
  on : enabled = true → ruleOff = false → state ≠ .off
  off : enabled = true → ruleOff = true → state = .off ∨ state = .leaving
  sounds : target.isSome = state.sounds

theorem voicesAgree_iff {s : State} : s.voicesAgree ↔
    ∀ v, Agrees (s.enabled v) (s.ruleOff v) (s.voice v).target (s.channel v).state := by
  constructor
  · rintro ⟨hoff, hun, hscene, hsound⟩ v
    exact ⟨fun h => ⟨hoff v h, hun v h⟩, fun h => (hscene v h).1, fun h => (hscene v h).2, hsound v⟩
  · intro h
    exact ⟨fun v hv => ((h v).disabled hv).1, fun v hv => ((h v).disabled hv).2,
      fun v hv => ⟨(h v).on hv, (h v).off hv⟩, fun v => (h v).sounds⟩

section
variable {e off off' : Bool} {target : Option Nat} {c : Channel}

/-- A target taken away with "no target" posted to an enabled voice (R129). -/
theorem Agrees.noTarget (h : Agrees e off target c.state) :
    Agrees e off none (if e then c.noTarget else c).state := by
  obtain ⟨hd, hon, hoff, hs⟩ := h
  cases e with
  | false =>
    obtain ⟨hstate, -⟩ := hd rfl
    exact ⟨fun _ => ⟨hstate, rfl⟩, nofun, nofun, by simp [hstate, VoiceState.sounds]⟩
  | true =>
    rw [if_pos rfl, noTarget_state]
    refine ⟨nofun, fun _ hf => ?_, fun _ ht => ?_, ?_⟩
    · have := hon rfl hf
      split <;> simp_all
    · rcases hoff rfl ht with hc | hc <;> simp [hc, VoiceState.sounds]
    · cases hc : c.state <;> simp [VoiceState.sounds]

/-- A scene takes effect at the voice (R118, R130). -/
theorem Agrees.scene (h : Agrees e off target c.state) :
    Agrees e off' (if e && off' then none else target)
      (if e then (if off' then c.sceneOff else c.sceneOn) else c).state := by
  obtain ⟨hd, hon, hoff, hs⟩ := h
  cases e with
  | false => exact ⟨hd, nofun, nofun, hs⟩
  | true =>
    cases off' with
    | true =>
      simp only [Bool.and_self, if_true, sceneOff_state]
      cases hc : c.state <;> exact ⟨nofun, nofun, by simp [VoiceState.sounds], by simp [VoiceState.sounds]⟩
    | false =>
      simp only [Bool.and_false, Bool.false_eq_true, if_false, if_true, sceneOn_state]
      cases hc : c.state <;> exact ⟨nofun, by simp, nofun, by simp [VoiceState.sounds, hs, hc]⟩

/-- A stopped cycle leaves the voice where its rule rests it (R144, R146). -/
theorem Agrees.rest (he : e = true) : Agrees e off none (restState off) := by
  subst he
  cases off <;> exact ⟨nofun, by simp [restState], by simp [restState], rfl⟩

end

/-! ### The law over the parts -/

section
variable {s t : State}

theorem voicesAgree_of_states (he : ∀ v, t.enabled v = s.enabled v) (ho : ∀ v, t.ruleOff v = s.ruleOff v)
    (ht : ∀ v, (t.voice v).target = (s.voice v).target) (hc : ∀ v, (t.channel v).state = (s.channel v).state)
    (h : s.voicesAgree) : t.voicesAgree :=
  voicesAgree_iff.2 fun v => by
    rw [he, ho, ht, hc]
    exact voicesAgree_iff.1 h v

theorem voicesAgree_congr (e : SameBody s t) (h : s.voicesAgree) : t.voicesAgree := by
  rw [e]
  exact h

theorem voicesAgree_cycle (m : s.CycleMoved t) (h : s.voicesAgree) : t.voicesAgree := by
  have he : t.straps = s.straps ∧ t.scenes = s.scenes := by rw [m.1.1]; exact ⟨rfl, rfl⟩
  refine voicesAgree_of_states (fun v => ?_) (fun v => ?_) (fun v => ?_) (fun v => (m.2 v).state) h
  · rw [State.enabled, State.voiceCount, he.1]; rfl
  · rw [State.ruleOff, State.rule, he.2]; rfl
  · rw [State.CycleMoved.voice m.1]

theorem voicesAgree_setChannel (v : Voice) {c : Channel} (h : s.voicesAgree)
    (hc : Agrees (s.enabled v) (s.ruleOff v) (s.voice v).target c.state) : (s.setChannel v c).voicesAgree :=
  voicesAgree_iff.2 fun w => by
    rw [State.channel_setChannel]
    split
    · next hw => exact hw ▸ hc
    · exact voicesAgree_iff.1 h w

theorem voicesAgree_scene (sc : Scene) (h : s.voicesAgree) :
    (({ s with scenes := { s.scenes with active := sc } } : State).forVoices State.sceneVoice).voicesAgree := by
  rw [State.sceneVoices_eq]
  refine voicesAgree_iff.2 fun v => ?_
  have hv := (voicesAgree_iff.1 h v).scene (off' := decide ((sc.rules.get v).mode = .off))
  simp only [State.voice, State.channel, Quad.get_ofFn] at hv ⊢
  change Agrees (s.enabled v) (decide ((sc.rules.get v).mode = .off))
    (if s.enabled v && decide ((sc.rules.get v).mode = .off) then clearedVoice else s.alloc.voices.get v).target _
  rw [apply_ite VoiceAlloc.target]
  exact hv

theorem voicesAgree_takesEffect (sc : Scene) (h : s.voicesAgree) : (s.sceneTakesEffect sc).voicesAgree := by
  have hscene := voicesAgree_scene (s := { s with scenes := { s.scenes with pending := none } }.abandonAnalysis) sc (by
    unfold State.abandonAnalysis
    split <;> exact h)
  refine cast (congrArg State.voicesAgree ?_) hscene
  unfold State.sceneTakesEffect State.abandonAnalysis
  cases s.tracker <;> rfl

theorem voicesAgree_silenced (h : s.voicesAgree) : s.loseAudio.voicesAgree := by
  refine voicesAgree_iff.2 fun v => ?_
  have hv := voicesAgree_iff.1 h v
  have hvoice : (s.loseAudio.voice v).target = none := congrArg VoiceAlloc.target (Quad.get_const clearedVoice v)
  have hchannel : s.loseAudio.channel v = (s.channel v).silence (s.ruleOff v) := Quad.get_ofFn _ v
  rw [hvoice, hchannel]
  change Agrees (s.enabled v) (s.ruleOff v) none _
  unfold Channel.silence
  split
  · next ha =>
      refine Agrees.rest ?_
      by_contra he
      rw [((hv.disabled (Bool.eq_false_iff.2 he)).1)] at ha
      cases ha
  · next ha =>
      refine ⟨fun he => ⟨(hv.disabled he).1, rfl⟩, hv.on, hv.off, ?_⟩
      change none.isSome = (s.channel v).state.sounds
      cases hc : (s.channel v).state <;> simp_all [VoiceState.active, VoiceState.sounds]

theorem hush_state (c : Channel) : c.hush.state = c.noTarget.state := by
  unfold Channel.hush Channel.noTarget
  cases h : c.state <;> simp [VoiceState.active, h]

/-- "No target" at every enabled voice, with every target taken away. -/
theorem voicesAgree_cleared (h : s.voicesAgree) (he : ∀ v, t.enabled v = s.enabled v)
    (ho : ∀ v, t.ruleOff v = s.ruleOff v) (ht : ∀ v, (t.voice v).target = none)
    (hc : ∀ v, (t.channel v).state = (if s.enabled v then (s.channel v).noTarget else s.channel v).state) :
    t.voicesAgree :=
  voicesAgree_iff.2 fun v => by
    rw [he, ho, ht, hc]
    exact (voicesAgree_iff.1 h v).noTarget

theorem voicesAgree_hush (h : s.voicesAgree) : s.hushListeners.hushRenderer.clearTargets.voicesAgree := by
  have hlisten : s.hushListeners.voicesAgree := by
    unfold State.hushListeners State.abandonAnalysis
    split <;> exact h
  refine voicesAgree_cleared hlisten (fun _ => rfl) (fun _ => rfl) (fun v => ?_) fun v => ?_
  · exact congrArg VoiceAlloc.target (Quad.get_const clearedVoice v)
  · have hchannel : s.hushListeners.hushRenderer.clearTargets.channel v = (s.hushListeners.channel v).hush :=
      Quad.get_ofFn _ v
    rw [hchannel, hush_state]
    split
    · rfl
    · next he =>
        rw [noTarget_state, ((voicesAgree_iff.1 hlisten v).disabled (Bool.eq_false_iff.2 he)).1]
        rfl

/-! ### The decision (R112 to R117) -/

/-- The postings of a decision whose passes have run for a held note. -/
theorem voicesAgree_postAll {held : Nat × Nat} (hbase : s.allocationBase = some held) (before : Quad VoiceAlloc)
    (hdisabled : ∀ v, s.enabled v = false → (s.voice v).target = none ∧ (s.channel v).state = .off)
    (hon : ∀ v, s.enabled v = true → (s.voice v).target ≠ none → s.ruleOff v = false)
    (hold : ∀ v, s.enabled v = true → ∃ target, Agrees true (s.ruleOff v) target (s.channel v).state) :
    (s.postAll before).voicesAgree := by
  refine voicesAgree_iff.2 fun v => ?_
  obtain ⟨s', hs', hvoice, hchannel, hv, hc⟩ :=
    forVoices_at (f := State.postVoice (some held) before) (fun v s => onVoice_postVoice s v _ _) s v
  have hpost : s.postAll before = s.forVoices (State.postVoice (some held) before) := by rw [State.postAll, hbase]
  have hvoices := onVoices_forVoices (fun v s => onVoice_postVoice s v (some held) before) s
  have henabled : (s.postAll before).enabled v = s.enabled v := by rw [hpost, hvoices]; rfl
  have hrule : (s.postAll before).ruleOff v = s.ruleOff v := by rw [hpost, hvoices]; rfl
  have henabled' : s'.enabled v = s.enabled v := by rw [hs']; rfl
  rw [henabled, hrule, hpost, hv, hc, postVoice_target, hvoice]
  cases he : s.enabled v with
  | false =>
    obtain ⟨htarget, hstate⟩ := hdisabled v he
    rw [postVoice_of_disabled (henabled'.trans he), hchannel, hstate, htarget]
    exact ⟨fun _ => ⟨rfl, rfl⟩, nofun, nofun, rfl⟩
  | true =>
    obtain ⟨target, ha⟩ := hold v he
    cases htarget : (s.voice v).target with
    | none =>
      rw [postVoice_of_no_target (henabled'.trans he) (hvoice ▸ htarget), postVoiceNone_channel, hchannel]
      simpa using ha.noTarget
    | some n =>
      rw [postVoice_of_target (henabled'.trans he) (hvoice ▸ htarget)]
      have hrule := hon v he (htarget ▸ nofun)
      have hstate : (s'.channel v).state ≠ .off := by rw [hchannel]; exact ha.on rfl hrule
      have hsounds : ((s'.postVoiceTarget held.1 held.2 (before.get v).target v n).channel v).state.sounds = true := by
        simp only [State.postVoiceTarget]
        split <;> exact postTarget_sounds _ hstate
      refine ⟨nofun, fun _ _ hoff => ?_, fun _ hoff => ?_, hsounds.symm⟩
      · rw [hoff] at hsounds
        cases hsounds
      · rw [hrule] at hoff
        cases hoff

theorem voicesAgree_decision (h : s.voicesAgree) (before : Quad VoiceAlloc) : (s.allocate.postAll before).voicesAgree := by
  have hlaw := voicesAgree_iff.1 h
  cases hbase : s.allocationBase with
  | none =>
    rw [State.postAll_allocate_of_base_none hbase]
    refine voicesAgree_cleared h (fun _ => rfl) (fun _ => rfl) (fun v => ?_) fun v => ?_
    · exact congrArg VoiceAlloc.target (Quad.get_const clearedVoice v)
    · exact congrArg Channel.state (Quad.get_ofFn _ v)
  | some held =>
    have hdisabled : ∀ v, s.enabled v = false → (s.runPasses held.1).voices.get v = s.voice v :=
      fun v he => runPasses_disabled he
    have hon : ∀ v, s.enabled v = true → ((s.runPasses held.1).voices.get v).target ≠ none → s.ruleOff v = false :=
      fun v he => runPasses_target_on he
    have hrun : s.allocate.alloc.voices = (s.runPasses held.1).voices := by
      simp only [State.allocate, hbase]
      rw [State.bumpTimes_eq]
    rw [allocate_eq, hrun]
    generalize s.allocate.counters = c
    generalize (s.runPasses held.1).voices = vs at hdisabled hon
    let t : State := { s with alloc := { s.alloc with voices := vs }, counters := c }
    refine voicesAgree_postAll (s := t) (held := held) hbase before (fun v he => ?_) hon fun v he => ?_
    · exact ⟨(congrArg VoiceAlloc.target (hdisabled v he)).trans ((hlaw v).disabled he).2, ((hlaw v).disabled he).1⟩
    · exact ⟨_, he ▸ hlaw v⟩

theorem voicesAgree_posted {r : Reason} (h : s.voicesAgree) : (posted r s).voicesAgree := by
  have hprepared : (prepared r s).voicesAgree :=
    prepared_keeps voicesAgree_congr (fun _ sc h => voicesAgree_takesEffect sc h) (by rw [updateMap_eq]; exact h)
  exact voicesAgree_decision hprepared (prepared r s).alloc.voices

theorem passPosition_state (q : Pos) (c : Channel) : (c.passPosition q).state = c.state := by
  unfold Channel.passPosition Channel.advanceRamp
  repeat' first | rfl | split

end

theorem voicesAgree_cycleBlind : CycleBlind State.voicesAgree where
  congr := voicesAgree_congr
  cycle := voicesAgree_cycle
  tracker _ _ _ _ _ h := h
  rampFull s v hs h := by
    obtain ⟨hd, hon, hoff, hsound⟩ := voicesAgree_iff.1 h v
    rw [hs] at hd hoff hsound
    exact voicesAgree_setChannel v h ⟨fun he => absurd (hd he).1 nofun, nofun, fun he ho => absurd (hoff he ho) (by simp),
      hsound⟩
  stop s v hs h := by
    obtain ⟨hd, -, -, hsound⟩ := voicesAgree_iff.1 h v
    rw [hs] at hd hsound
    have htarget : (s.voice v).target = none := by simpa [VoiceState.sounds] using hsound
    refine voicesAgree_setChannel v h ?_
    rw [htarget]
    refine Agrees.rest (by_contra fun he => ?_)
    exact absurd (hd (Bool.eq_false_iff.2 he)).1 nofun
  claim s m h := by
    unfold State.acceptClaim
    repeat' first | exact h | split
  sceneVoices _ sc h := voicesAgree_scene sc h
  bypassOn s h := by
    refine voicesAgree_congr (sameBody_bypassOn s) (voicesAgree_cleared h (fun _ => rfl) (fun _ => rfl) ?_ ?_)
    · exact fun v => congrArg VoiceAlloc.target (Quad.get_const clearedVoice v)
    · exact fun v => congrArg Channel.state (Quad.get_ofFn _ v)
  audioReturn s h := by
    unfold State.audioReturn
    split <;> exact h
  loss _ h := voicesAgree_silenced h
  complete s _ r _ _ h := voicesAgree_congr (sameBody_takeDecision _ _) (voicesAgree_posted (s := s.writeResult r) h)
  expire s h := by
    rw [State.expireEntries, State.bumpTimes_eq]
    exact h
  grain _ v _ _ h := voicesAgree_setChannel v h (voicesAgree_iff.1 h v)
  hush _ h := voicesAgree_hush h
  released s pins b l l' p _ := voicesAgree_iff.2 fun v => by
    have hstate : ((State.released pins b l l' p).channel v).state = .off :=
      congrArg Channel.state (Quad.get_const resetChannel v)
    have htarget : ((State.released pins b l l' p).voice v).target = none :=
      congrArg VoiceAlloc.target (Quad.get_const clearedVoice v)
    have hrule : (State.released pins b l l' p).ruleOff v = true := by cases v <;> rfl
    rw [hstate, htarget, hrule]
    exact ⟨fun _ => ⟨rfl, rfl⟩, nofun, fun _ _ => .inl rfl, rfl⟩
  capture s x h := by
    have htrim : (State.captureSample x s).trimMarks.voicesAgree := by
      unfold State.trimMarks
      split <;> exact h
    refine voicesAgree_of_states (s := (State.captureSample x s).trimMarks) (fun _ => rfl) (fun _ => rfl) (fun _ => rfl) (fun v => ?_) htrim
    have hchannel : ((State.captureSample x s).trimMarks.positionDue.channel v) =
        ((State.captureSample x s).trimMarks.channel v).passPosition (State.captureSample x s).trimMarks.clock :=
      Quad.get_ofFn _ v
    rw [hchannel, passPosition_state]

/-- Settles O57: the passes give targets to enabled voices with a rule alone, and a posting brings the state after it. -/
theorem voicesWithTargetsAreTheSoundingOnes : Obligations.VoicesWithTargetsAreTheSoundingOnes :=
  fun _ _ h e => voicesAgree_cycleBlind.stepKeeps h e

end Sys2Proof.VoicesAgree

/-! PROOF. Targets (chapter 07): every part of a command but a decision leaves a voice its target or takes it away, and a
decision gives targets that no own voice holds, from the candidates of the held note. -/

namespace Sys2Proof.Targets

open Sys2Proof.Machine Sys2Proof.Body Sys2Proof.Decision Sys2Proof.PassLaws

/-! ### Targets alone taken away -/

/-- The straps stay, the follower stays or rests, and every voice keeps its target or loses it. -/
structure Removed (s t : State) : Prop where
  straps : t.straps = s.straps
  follower : t.follower = s.follower ∨ t.follower = .rest
  targets : ∀ v, (t.voice v).target = (s.voice v).target ∨ (t.voice v).target = none

section
variable {s t : State}

theorem removed_of_same (hs : t.straps = s.straps) (hf : t.follower = s.follower)
    (hv : t.alloc.voices = s.alloc.voices) : Removed s t :=
  ⟨hs, .inl hf, fun v => .inl (by rw [State.voice, State.voice, hv])⟩

theorem removed_of_cleared (hs : t.straps = s.straps) (hf : t.follower = s.follower ∨ t.follower = .rest)
    (hv : t.alloc.voices = Quad.const clearedVoice) : Removed s t :=
  ⟨hs, hf, fun v => .inr (by rw [State.voice, hv, Quad.get_const]; rfl)⟩

theorem removed_of_sameBody (e : SameBody s t) : Removed s t :=
  removed_of_same (by rw [e]) (by rw [e]) (by rw [e])

theorem removed_of_cycleMoved (m : s.CycleMoved t) : Removed s t :=
  removed_of_same (by rw [m.1.1]) (by rw [m.1.1]) (by rw [m.1.1])

theorem removed_sceneVoices (s : State) : Removed s (s.forVoices State.sceneVoice) := by
  rw [State.sceneVoices_eq]
  refine ⟨rfl, .inl rfl, fun v => ?_⟩
  simp only [State.voice, Quad.get_ofFn]
  split
  · exact .inr rfl
  · exact .inl rfl

theorem removed_sceneTakesEffect (s : State) (sc : Scene) : Removed s (s.sceneTakesEffect sc) := by
  obtain ⟨e, -, -, hv⟩ := s.sceneTakesEffect_taken sc
  refine ⟨by rw [e], .inl (by rw [e]), fun v => ?_⟩
  obtain ⟨hdisabled, hoff, hon⟩ := hv v
  cases he : s.enabled v with
  | false => rw [(hdisabled he).1]; exact .inl rfl
  | true =>
    by_cases hm : (sc.rules.get v).mode = .off
    · exact .inr (by rw [(hoff he hm).1])
    · rw [(hon he hm).1]; exact .inl rfl

/-- The postings leave every target (R117). -/
theorem removed_postAll (s : State) (before : Quad VoiceAlloc) : Removed s (s.postAll before) := by
  have hf : ∀ v s', OnVoice v s' (State.postVoice s.allocationBase before v s') :=
    fun v s' => onVoice_postVoice s' v _ _
  have hall := onVoices_forVoices hf s
  refine ⟨by rw [State.postAll, hall], .inl (by rw [State.postAll, hall]), fun v => .inl ?_⟩
  obtain ⟨s', -, hvoice, -, hv, -⟩ := forVoices_at hf s v
  rw [State.postAll, hv, postVoice_target, hvoice]

end

/-- What must be shown of a property that the loss of a target keeps. -/
structure TargetLaw (P : State → Prop) : Prop where
  removed : ∀ {s t}, Removed s t → P s → P t
  allocated : ∀ s h, s.follower.heldNote = some h → P s →
    P { s with alloc := { s.alloc with voices := (s.runPasses h).voices } }
  stepped : ∀ s a r, runSegment s.npt (analysisWindow s.ring a.tick) a = .ends r → P s →
    P { s with follower := followerStep r.reason s.follower }
  released : ∀ pins b l l' p, P (State.released pins b l l' p)

theorem heldNote_of_base {s : State} {h p : Nat} (hbase : s.allocationBase = some (h, p)) :
    s.follower.heldNote = some h := by
  unfold State.allocationBase at hbase
  split at hbase
  · cases hbase
  · cases hf : s.follower <;> simp_all [Follower.heldWithLive, Follower.heldNote]

section
variable {P : State → Prop} (k : TargetLaw P) {s : State}
include k

theorem allocate_keeps (h : P s) : P s.allocate := by
  simp only [State.allocate]
  split
  · next hbase => exact k.removed (removed_of_sameBody (sameBody_bumpTimes _ _ _)) (k.allocated s _ (heldNote_of_base hbase) h)
  · exact k.removed (s := s) (removed_of_cleared rfl (.inl rfl) rfl) h

theorem posted_keeps {a : Analysis} {r : ResultRecord} (hr : runSegment s.npt (analysisWindow s.ring a.tick) a = .ends r)
    (h : P s) : P (posted r.reason s) := by
  have hmap : P ({ s with follower := followerStep r.reason s.follower } : State).updateMap := by
    rw [updateMap_eq]
    exact k.removed (s := { s with follower := followerStep r.reason s.follower }) (removed_of_same rfl rfl rfl)
      (k.stepped s a r hr h)
  have hprepared : P (prepared r.reason s) := prepared_keeps (fun e => k.removed (removed_of_sameBody e))
    (fun s sc => k.removed (removed_sceneTakesEffect s sc)) hmap
  exact k.removed (removed_postAll _ _) (allocate_keeps k hprepared)

theorem targetLaw_cycleBlind : CycleBlind P where
  congr e := k.removed (removed_of_sameBody e)
  cycle m := k.removed (removed_of_cycleMoved m)
  tracker _ _ _ _ _ := k.removed (removed_of_same rfl rfl rfl)
  rampFull _ _ _ := k.removed (removed_of_same rfl rfl rfl)
  stop _ _ _ := k.removed (removed_of_same rfl rfl rfl)
  claim s m := k.removed (by
    unfold State.acceptClaim
    repeat' first | exact removed_of_same rfl rfl rfl | split)
  sceneVoices s sc h := k.removed (removed_sceneVoices _) (k.removed (s := s) (removed_of_same rfl rfl rfl) h)
  bypassOn s h := k.removed (removed_of_sameBody (sameBody_bypassOn s))
    (k.removed (s := s) (removed_of_cleared rfl (.inl rfl) rfl) h)
  audioReturn s := k.removed (by
    unfold State.audioReturn
    split <;> exact removed_of_same rfl rfl rfl)
  loss _ := k.removed (removed_of_cleared rfl (.inr rfl) rfl)
  complete s a r _ hr h := k.removed (removed_of_sameBody (sameBody_takeDecision _ _))
    (posted_keeps k (s := s.writeResult r) hr (k.removed (s := s) (removed_of_same rfl rfl rfl) h))
  expire s := k.removed (by
    rw [State.expireEntries, State.bumpTimes_eq]
    exact removed_of_same rfl rfl rfl)
  grain _ _ _ _ := k.removed (removed_of_same rfl rfl rfl)
  hush s := k.removed (by
    have hstraps : s.abandonAnalysis.straps = s.straps := by
      unfold State.abandonAnalysis
      split <;> rfl
    exact removed_of_cleared hstraps (.inr rfl) rfl)
  released _ _ _ _ _ _ _ := k.released _ _ _ _ _
  capture s x := k.removed (by
    unfold State.trimMarks
    split <;> exact removed_of_same rfl rfl rfl)

end

/-! ### Distinct targets (R113, R114, R115) -/

/-- A disabled voice has no target, and no two voices have the same. -/
def Distinct (s : State) : Prop := s.disabledUntargeted ∧ s.targetsDistinct

/-- No two voices hold the same target during the passes. -/
def PassesDistinct (p : Passes) : Prop :=
  ∀ v w t, (p.voices.get v).target = some t → (p.voices.get w).target = some t → v = w

/-- Every target that a voice holds has been noted as taken. -/
def PassesTaken (p : Passes) : Prop := ∀ v t, (p.voices.get v).target = some t → t ∈ p.taken

/-- A voice that keeps its target or loses it leaves the others' targets distinct. -/
theorem distinct_of_removed {p q : Passes} (h : PassesDistinct p)
    (hq : ∀ v t, (q.voices.get v).target = some t → (p.voices.get v).target = some t) : PassesDistinct q :=
  fun v w t hv hw => h v w t (hq v t hv) (hq w t hw)

section
variable {s : State} {h : Nat}

theorem holdVoice_target {v w : Voice} {p : Passes} {t : Nat} (ht : ((s.holdVoice h v p).voices.get w).target = some t) :
    (p.voices.get w).target = some t := by
  by_cases hw : w = v
  · subst hw
    obtain ⟨-, e⟩ | ⟨n, -, hn, -, e⟩ | ⟨-, e⟩ := holdVoice_cases s h w p
    · rwa [e] at ht
    · rw [e, Quad.get_set_same] at ht
      exact ht
    · rw [e, Quad.get_set_same] at ht
      cases ht
  · rwa [holdVoice_get_ne hw] at ht

theorem holdVoice_taken {v : Voice} {p : Passes} {t : Nat} (ht : t ∈ p.taken) : t ∈ (s.holdVoice h v p).taken := by
  obtain ⟨-, e⟩ | ⟨n, -, -, -, e⟩ | ⟨-, e⟩ := holdVoice_cases s h v p
  · rwa [e]
  · rw [e]; exact .tail _ ht
  · rwa [e]

theorem heldPasses_distinct (hd : Distinct s) : PassesDistinct (heldPasses s h) :=
  List.foldlRecOn (motive := PassesDistinct) Voice.all _ hd.2 fun _ hp _ _ =>
    distinct_of_removed hp fun _ _ => holdVoice_target

theorem heldPasses_taken (hd : Distinct s) : PassesTaken (heldPasses s h) := by
  intro v t ht
  have hsub : (s.voice v).target = some t := by
    refine List.foldlRecOn (motive := fun p : Passes => (p.voices.get v).target = some t → (s.voice v).target = some t)
      Voice.all _ id (fun _ hp _ _ hq => hp (holdVoice_target hq)) ht
  have he : s.enabled v = true := by
    by_contra he
    rw [hd.1 v (Bool.eq_false_iff.2 he)] at hsub
    cases hsub
  refine foldl_brings
    (T := fun p v => s.enabled v = true → ∀ t, (p.voices.get v).target = some t → t ∈ p.taken)
    (fun p v w hp he t ht => holdVoice_taken (hp he t (holdVoice_target ht))) (fun p w he t ht => ?_)
    Voice.all _ (Voice.mem_all v) he t ht
  obtain ⟨hdis | hn, e⟩ | ⟨n, -, hn, -, e⟩ | ⟨-, e⟩ := holdVoice_cases s h w p
  · rw [he] at hdis; cases hdis
  · rw [e, hn] at ht; cases ht
  · rw [e, Quad.get_set_same] at ht
    obtain rfl : n = t := Option.some.inj (hn.symm.trans ht)
    rw [e]
    exact .head _
  · rw [e, Quad.get_set_same] at ht; cases ht

/-- A note given is no own voice's, since each of those is noted as taken. -/
theorem assignVoice_distinct {p : Passes} (v : Voice) (hp : PassesDistinct p ∧ PassesTaken p) :
    PassesDistinct (s.assignVoice h v p) ∧ PassesTaken (s.assignVoice h v p) := by
  obtain ⟨hdistinct, htaken⟩ := hp
  have hcleared : ∀ (a : VoiceAlloc) (k : Nat), a.target = none →
      PassesDistinct { p with voices := p.voices.set v a, parks := k } ∧
        PassesTaken { p with voices := p.voices.set v a, parks := k } := by
    intro a k ha
    have hsub : ∀ w t, ((p.voices.set v a).get w).target = some t → (p.voices.get w).target = some t := by
      intro w t ht
      rw [Quad.get_set] at ht
      split at ht
      · rw [ha] at ht; cases ht
      · exact ht
    exact ⟨distinct_of_removed hdistinct hsub, fun w t ht => htaken w t (hsub w t ht)⟩
  obtain ⟨-, e⟩ | ⟨-, hn, e⟩ | ⟨n, b, -, -, hn, -, hfree, e⟩ | ⟨-, hn, e⟩ := assignVoice_cases s h v p
  · rw [e]; exact ⟨hdistinct, htaken⟩
  · rw [e]; exact hcleared _ _ hn
  · rw [e]
    have hget : ∀ w t, ((p.give v n b).voices.get w).target = some t →
        (w = v ∧ t = n) ∨ (w ≠ v ∧ (p.voices.get w).target = some t) := by
      intro w t ht
      by_cases hw : w = v
      · subst hw
        rw [VoicePasses.give_get_same] at ht
        exact .inl ⟨rfl, (Option.some.inj ht).symm⟩
      · rw [VoicePasses.give_get_ne n b hw] at ht
        exact .inr ⟨hw, ht⟩
    refine ⟨fun u w t hu hw => ?_, fun w t ht => ?_⟩
    · rcases hget u t hu with ⟨rfl, rfl⟩ | ⟨-, hu'⟩ <;> rcases hget w _ hw with ⟨rfl, htn⟩ | ⟨-, hw'⟩
      · rfl
      · exact absurd (htaken w _ hw') hfree
      · exact absurd (htn ▸ htaken u t hu') hfree
      · exact hdistinct u w t hu' hw'
    · rcases hget w t ht with ⟨-, rfl⟩ | ⟨-, ht⟩
      · exact .head _
      · exact .tail _ (htaken w t ht)
  · rw [e]; exact hcleared _ _ hn

theorem runPasses_distinct (hd : Distinct s) : PassesDistinct (s.runPasses h) :=
  (List.foldlRecOn (motive := fun p => PassesDistinct p ∧ PassesTaken p) Voice.all (fun p v => s.assignVoice h v p)
    ⟨heldPasses_distinct hd, heldPasses_taken hd⟩ fun _ hp v _ => assignVoice_distinct v hp).1

end

theorem distinct_targetLaw : TargetLaw Distinct where
  removed {s t} m hd := by
    have htarget : ∀ v n, (t.voice v).target = some n → (s.voice v).target = some n := by
      intro v n hn
      rcases m.targets v with h | h
      · rwa [h] at hn
      · rw [h] at hn; cases hn
    refine ⟨fun v he => ?_, fun v w n hv hw => hd.2 v w n (htarget v n hv) (htarget w n hw)⟩
    have hs : (s.voice v).target = none := hd.1 v (by rwa [State.enabled, State.voiceCount, ← m.straps])
    rcases m.targets v with h | h
    · rw [h, hs]
    · exact h
  allocated s h _ hd :=
    ⟨fun v he => (congrArg VoiceAlloc.target (runPasses_disabled (s := s) he)).trans (hd.1 v he), runPasses_distinct hd⟩
  stepped _ _ _ _ hd := hd
  released pins b l l' p := by
    have hnone : ∀ v, ((State.released pins b l l' p).voice v).target = none := fun v =>
      congrArg VoiceAlloc.target (Quad.get_const clearedVoice v)
    exact ⟨fun v _ => hnone v, fun v _ _ hv => by rw [hnone] at hv; cases hv⟩

theorem targets_stay_distinct : Clause.TargetsStayDistinct :=
  fun _ _ hun hd e => (targetLaw_cycleBlind distinct_targetLaw).stepKeeps ⟨hun, hd⟩ e

/-! ### Notes in the table (R54, R117) -/

/-- A period converts to a note of the table, whatever the table holds (R42, R43). -/
theorem periodToPitch_note {npt : List Nat} {p n : Nat} {c : Int} (h : periodToPitch npt p = some (n, c)) :
    noteSound n := by
  unfold periodToPitch at h
  split_ifs at h
  · simp only [Option.some.injEq, Prod.mk.injEq] at h
    obtain ⟨rfl, -⟩ := h
    exact ⟨by decide, le_refl _⟩
  · split at h
    · cases h
    · next m hm =>
        have hmem := List.mem_of_find?_eq_some hm
        simp only [List.mem_map, List.mem_range, Config.lowNote] at hmem
        obtain ⟨i, hi, rfl⟩ := hmem
        dsimp only at h
        split_ifs at h <;>
        · simp only [Option.some.injEq, Prod.mk.injEq] at h
          obtain ⟨rfl, -⟩ := h
          exact ⟨by omega, by omega⟩

/-- A voiced result carries a note of the table (R28). -/
theorem runSegment_note {npt : List Nat} {w : List Int} {a : Analysis} {r : ResultRecord} {p n : Nat} {c : Int}
    (h : runSegment npt w a = .ends r) (hr : r.reason = .voiced p n c) : noteSound n := by
  have hgrade : ∀ t conf q, gradeMatch npt t conf q = .voiced p n c → noteSound n := by
    intro t conf q hg
    unfold gradeMatch at hg
    split at hg
    · cases hg
    · split at hg
      · cases hg
      · next m d hm =>
          simp only [Reason.voiced.injEq] at hg
          obtain ⟨-, rfl, -⟩ := hg
          exact periodToPitch_note hm
  unfold runSegment at h
  split at h
  · unfold levelSegment at h
    dsimp only at h
    split at h
    · simp only [SegmentEnd.ends.injEq] at h
      subst h
      cases hr
    · cases h
  · split at h
    · cases h
    · split at h
      · cases h
      · split at h
        · cases h
        · simp only [finalSegment, SegmentEnd.ends.injEq] at h
          subst h
          exact hgrade _ _ _ hr

theorem candidate_noteSound {scene : Scene} {rule : VoiceRule} {h n : Nat} (hh : noteSound h)
    (hn : n ∈ candidates scene rule h) : noteSound n := by
  obtain ⟨hlow, hhigh⟩ := hh
  obtain ⟨i, -, rfl⟩ := List.mem_map.1 hn
  have := CandidateNotes.foldCandidate_mem (h := h) (by omega) (by omega) (unfoldedCandidate scene rule.mode h i)
  exact ⟨by omega, by omega⟩

/-- The follower's part of the law: the notes that its state holds. -/
def FollowerSound (f : Follower) : Prop :=
  (∀ c p, f = .arming c p → noteSound c) ∧ f.noteInTable ∧ ∀ h d p, f = .changing h d p → noteSound d

theorem followerStep_sound {f : Follower} {r : Reason} (hf : FollowerSound f)
    (hr : ∀ p n c, r = .voiced p n c → noteSound n) : FollowerSound (followerStep r f) := by
  obtain ⟨harm, hheld, hchange⟩ := hf
  have hvoiced : ∀ x p, noteSound x → FollowerSound (followVoiced x p f) := by
    intro x p hx
    cases f with
    | rest => exact ⟨fun c q e => by cases e; exact hx, nofun, nofun⟩
    | arming c q =>
      unfold followVoiced
      dsimp only
      split
      · exact ⟨nofun, fun n e => by cases e; exact harm _ _ rfl, nofun⟩
      · exact ⟨fun c q e => by cases e; exact hx, nofun, nofun⟩
    | held m q | lapsing m j q =>
      have hm := hheld m rfl
      unfold followVoiced
      dsimp only
      split
      · exact ⟨nofun, fun n e => by cases e; exact hm, nofun⟩
      · exact ⟨nofun, fun n e => by cases e; exact hm, fun _ _ _ e => by cases e; exact hx⟩
    | changing m d q =>
      have hm := hheld m rfl
      have hd := hchange m d q rfl
      unfold followVoiced
      dsimp only
      split
      · exact ⟨nofun, fun n e => by cases e; exact hd, nofun⟩
      · split
        · exact ⟨nofun, fun n e => by cases e; exact hm, nofun⟩
        · exact ⟨nofun, fun n e => by cases e; exact hm, fun _ _ _ e => by cases e; exact hx⟩
  have hunvoiced : FollowerSound (followUnvoiced f) := by
    cases f with
    | rest => exact ⟨nofun, nofun, nofun⟩
    | arming c q => exact ⟨nofun, nofun, nofun⟩
    | held m q | changing m d q => exact ⟨nofun, fun n e => by cases e; exact hheld m rfl, nofun⟩
    | lapsing m j q =>
      unfold followUnvoiced
      dsimp only
      split
      · exact ⟨nofun, fun n e => by cases e; exact hheld m rfl, nofun⟩
      · exact ⟨nofun, nofun, nofun⟩
  cases r with
  | voiced p n c => exact hvoiced n p (hr p n c rfl)
  | quiet | unsure | outOfRange => exact hunvoiced

theorem notesInTable_iff {s : State} : s.notesInTable ↔
    FollowerSound s.follower ∧ ∀ v t, (s.voice v).target = some t → noteSound t := by
  simp only [State.notesInTable, FollowerSound, and_assoc]

/-- A pass gives candidates of the held note alone. -/
theorem runPasses_noteSound {s : State} {h : Nat} (hh : noteSound h)
    (hs : ∀ v t, (s.voice v).target = some t → noteSound t) (v : Voice) (t : Nat)
    (ht : ((s.runPasses h).voices.get v).target = some t) : noteSound t := by
  refine runPasses_keeps (T := fun p => ∀ v t, (p.voices.get v).target = some t → noteSound t) hs
    (fun p w hp v t ht => hp v t (holdVoice_target ht)) (fun p w hp v t ht => ?_) v t ht
  by_cases hv : v = w
  · subst hv
    obtain ⟨-, e⟩ | ⟨-, hn, e⟩ | ⟨n, b, -, -, -, hmem, -, e⟩ | ⟨-, hn, e⟩ := assignVoice_cases s h v p
    · exact hp v t (e ▸ ht)
    · rw [e, Quad.get_set_same] at ht
      exact hp v t ht
    · rw [e, VoicePasses.give_get_same] at ht
      obtain rfl : n = t := Option.some.inj ht
      exact candidate_noteSound hh hmem
    · rw [e, VoicePasses.unplace_get_same] at ht
      exact hp v t ht
  · rw [assignVoice_get_other hv] at ht
    exact hp v t ht

theorem notes_targetLaw : TargetLaw State.notesInTable where
  removed {s t} m hs := by
    rw [notesInTable_iff] at hs ⊢
    refine ⟨?_, fun v n hn => ?_⟩
    · rcases m.follower with h | h
      · rw [h]; exact hs.1
      · rw [h]; exact ⟨nofun, nofun, nofun⟩
    · rcases m.targets v with h | h
      · exact hs.2 v n (h ▸ hn)
      · rw [h] at hn; cases hn
  allocated s h hh hs := by
    rw [notesInTable_iff] at hs ⊢
    exact ⟨hs.1, runPasses_noteSound (hs.1.2.1 h hh) hs.2⟩
  stepped s a r hr hs := by
    rw [notesInTable_iff] at hs ⊢
    exact ⟨followerStep_sound hs.1 fun _ _ _ e => runSegment_note hr e, hs.2⟩
  released pins b l l' p := by
    refine notesInTable_iff.2 ⟨⟨nofun, nofun, nofun⟩, fun v t ht => ?_⟩
    have hnone : ((State.released pins b l l' p).voice v).target = none :=
      congrArg VoiceAlloc.target (Quad.get_const clearedVoice v)
    rw [hnone] at ht
    cases ht

theorem notes_stay_in_table : Clause.NotesStayInTheTable :=
  fun _ _ h e => (targetLaw_cycleBlind notes_targetLaw).stepKeeps h e

/-- Settles O58: both laws lose nothing with a target, and a decision gives free candidates of the held note. -/
theorem targetsStayDistinctNotesInTheTable : Obligations.TargetsStayDistinctNotesInTheTable :=
  ⟨targets_stay_distinct, notes_stay_in_table⟩

end Sys2Proof.Targets

/-! PROOF. Before the tracker has warmed (sections 1.7 and 2.1): it is ABSENT with audio, and until an analysis can
complete nothing has given the follower a note, the mark list a mark or a voice a target. -/

namespace Sys2Proof.Warming

open Sys2Proof.Machine Sys2Proof.Body Sys2Proof.Decision Sys2Proof.Targets

/-- Audio is PRESENT and the tracker has warmed. -/
def Warm (s : State) : Prop := s.audio.state = .present ∧ s.tracker.quiet = false

/-- The law: the tracker follows audio, and all rests until it has warmed. -/
def Rests (s : State) : Prop := s.trackerFollowsAudio ∧ s.restsUntilWarm

section
variable {s t : State}

theorem rests_of_warm (h : Warm s) : Rests s := by
  obtain ⟨haudio, hwarm⟩ := h
  refine ⟨⟨fun e => ?_, fun e => ?_⟩, fun hq => ?_⟩
  · rw [haudio] at e; cases e
  · rw [e] at hwarm; cases hwarm
  · rw [hwarm] at hq; cases hq

theorem warm_congr (e : SameBody s t) (h : Warm s) : Warm t := by
  rw [e]
  exact h

theorem warm_scene (sc : Scene) (h : Warm s) : Warm (s.sceneTakesEffect sc) := by
  obtain ⟨haudio, hwarm⟩ := h
  obtain ⟨e, hflight, hrest, -⟩ := s.sceneTakesEffect_taken sc
  refine ⟨by rw [e]; exact haudio, ?_⟩
  by_cases hf : ∃ a, s.tracker = .analysing a
  · rw [(hflight hf).1]; rfl
  · rw [(hrest hf).1]; exact hwarm

/-- A decision leaves audio and the warmed tracker: its scene can abandon an analysis, and nothing else moves it. -/
theorem warm_posted {r : Reason} (h : Warm s) : Warm (posted r s) := by
  have hprepared : Warm (prepared r s) :=
    prepared_keeps warm_congr (fun _ sc h => warm_scene sc h) (by rw [updateMap_eq]; exact h)
  have hsame := onVoices_forVoices (f := State.postVoice (prepared r s).allocate.allocationBase
    (prepared r s).alloc.voices) (fun v s => onVoice_postVoice s v _ _) (prepared r s).allocate
  rw [posted, State.postAll, hsame, allocate_eq]
  exact hprepared

theorem rests_congr (e : SameBody s t) (h : Rests s) : Rests t := by
  rw [e]
  exact h

/-- Where the tracker, audio, the marks and the cover end stay, a loss of targets keeps the law. -/
theorem rests_of_removed (m : Removed s t) (haudio : t.audio.state = s.audio.state) (htracker : t.tracker = s.tracker)
    (hmarks : t.marks = s.marks) (hcover : t.coverEnd = s.coverEnd) (h : Rests s) : Rests t := by
  refine ⟨by rw [State.trackerFollowsAudio, haudio, htracker]; exact h.1, fun hq => ?_⟩
  obtain ⟨hf, hm, hc, ht⟩ := h.2 (htracker ▸ hq)
  refine ⟨?_, hmarks.trans hm, hcover.trans hc, fun v => ?_⟩
  · rcases m.follower with e | e
    · rw [e, hf]
    · exact e
  · rcases m.targets v with e | e
    · rw [e, ht]
    · exact e

end

theorem rests_cycleBlind : CycleBlind Rests where
  congr := rests_congr
  cycle m := rests_of_removed (removed_of_cycleMoved m) (by rw [m.1.1]) (by rw [m.1.1]) (by rw [m.1.1]) (by rw [m.1.1])
  tracker s tr hs htr hq h := by
    refine ⟨⟨fun e => absurd (h.1.1 e) hs, fun e => absurd e htr⟩, fun e => ?_⟩
    rw [hq] at e
    cases e
  rampFull _ _ _ := rests_of_removed (removed_of_same rfl rfl rfl) rfl rfl rfl rfl
  stop _ _ _ := rests_of_removed (removed_of_same rfl rfl rfl) rfl rfl rfl rfl
  claim s m h := by
    unfold State.acceptClaim
    repeat' first | exact h | split
  sceneVoices s sc h := by
    have hall := onVoices_forVoices (fun v s => onVoice_sceneVoice s v)
      ({ s with scenes := { s.scenes with active := sc } } : State)
    exact rests_of_removed (removed_sceneVoices _) (by rw [hall]) (by rw [hall]) (by rw [hall]) (by rw [hall]) h
  bypassOn s h := rests_congr (sameBody_bypassOn s)
    (rests_of_removed (s := s) (removed_of_cleared rfl (.inl rfl) rfl) rfl rfl rfl rfl h)
  audioReturn s h := by
    unfold State.audioReturn
    split
    · next ha => exact ⟨⟨nofun, nofun⟩, fun _ => h.2 (by rw [h.1.1 ha]; rfl)⟩
    · exact h
  loss _ _ := ⟨⟨fun _ => rfl, fun _ => rfl⟩, fun _ =>
    ⟨rfl, rfl, rfl, fun v => congrArg VoiceAlloc.target (Quad.get_const clearedVoice v)⟩⟩
  complete s a r ha _ h := by
    have hpresent : s.audio.state = .present := by
      cases hs : s.audio.state with
      | present => rfl
      | absent =>
        have := h.1.1 hs
        rw [ha] at this
        cases this
    exact rests_congr (sameBody_takeDecision _ _) (rests_of_warm (warm_posted (s := s.writeResult r) ⟨hpresent, rfl⟩))
  expire s h := by
    rw [State.expireEntries, State.bumpTimes_eq]
    exact h
  grain _ _ _ _ := rests_of_removed (removed_of_same rfl rfl rfl) rfl rfl rfl rfl
  hush s h := by
    have htracker : s.abandonAnalysis.tracker = .absent ↔ s.tracker = .absent := by
      unfold State.abandonAnalysis
      split
      · next ha => simp [ha]
      · rfl
    have haudio : s.abandonAnalysis.audio = s.audio := by
      unfold State.abandonAnalysis
      split <;> rfl
    refine ⟨?_, fun _ => ⟨rfl, rfl, rfl, fun v => congrArg VoiceAlloc.target (Quad.get_const clearedVoice v)⟩⟩
    change s.abandonAnalysis.audio.state = .absent ↔ s.abandonAnalysis.tracker = .absent
    rw [haudio, htracker]
    exact h.1
  released _ _ _ _ _ _ _ := ⟨⟨fun _ => rfl, fun _ => rfl⟩, fun _ =>
    ⟨rfl, rfl, rfl, fun v => congrArg VoiceAlloc.target (Quad.get_const clearedVoice v)⟩⟩
  capture s x h := by
    have htrim : Rests (State.captureSample x s).trimMarks := by
      have htrimmed : ∀ far, Rests { State.captureSample x s with
          marks := removeOldMarks (s.clock + 1) s.marks, coverFar := far } := by
        refine fun far => ⟨h.1, fun hq => ?_⟩
        obtain ⟨hf, hm, hc, ht⟩ := h.2 hq
        refine ⟨hf, ?_, hc, ht⟩
        change removeOldMarks (s.clock + 1) s.marks = []
        rw [hm]
        rfl
      unfold State.trimMarks
      split
      · exact h
      all_goals exact htrimmed _
    exact htrim

/-- Settles O59: an analysis alone gives notes, marks and targets, and none completes before the tracker has warmed. -/
theorem noNoteMarkOrTargetBeforeWarming : Obligations.NoNoteMarkOrTargetBeforeWarming :=
  fun _ _ hfollows hrests e => rests_cycleBlind.stepKeeps ⟨hfollows, hrests⟩ e

end Sys2Proof.Warming

/-! PROOF. The events at which the latch, the clock, the counters and the clash flag move (chapter 01, sections 10.7 and
11.5): what settling and the commands leave alone, from the laws of the fixed parts. -/

namespace Sys2Proof.FixedParts

open Sys2Proof.Machine Sys2Proof.Body Sys2Proof.Decision

/-! ### What settling leaves alone (log 1) -/

section
variable (s : State)

theorem onStation_acceptFrame (a : Accepted) : OnStation s (s.acceptFrame a) := by
  cases a with
  | claim m =>
    simp only [State.acceptFrame, State.acceptClaim]
    repeat' first | rfl | split
  | scene p m =>
    have hswitch : ∀ s : State, OnStation s (s.switchScene p m) := fun s => by
      unfold State.switchScene
      split
      · exact onStation_sceneTakesEffect s _
      · rfl
      · split
        · exact onStation_sceneTakesEffect s _
        · rfl
    simp only [State.acceptFrame, State.acceptScene]
    split
    · refine .trans ?_ (hswitch _)
      split <;> rfl
    · rfl
  | bypassOn =>
    simp only [State.acceptFrame, State.acceptBypassOn]
    split
    · rfl
    · simp only [State.bypassOn, State.postNoTargets_eq]
      rfl
  | bypassOff => rfl
  | query c => rfl

theorem onStation_cycleMoved {s t : State} (m : s.CycleMoved t) : OnStation s t := by
  rw [OnStation, m.1.1]

/-- A step that has come about touches the station's blocks behind the ports and the mark list alone. -/
theorem onStation_perform (o : Owed) : OnStation s (State.perform o s) := by
  cases o with
  | leaveWarming =>
    simp only [State.perform, State.leaveWarming]
    repeat' first | rfl | split
  | analysisTick =>
    simp only [State.perform, State.takeTick]
    split <;> rfl
  | windowOverwrite =>
    simp only [State.perform, State.overwriteWindow]
    split
    · split
      · exact .trans (onStation_abandonAnalysis s) (onStation_bumpTimes _ .late 1)
      · rfl
    · rfl
  | sceneDuePoint =>
    simp only [State.perform, State.takeDueScene]
    split
    · split
      · split
        · exact onStation_sceneTakesEffect s _
        · rfl
      · rfl
    · rfl
  | fetchWithdrawal v => exact onStation_cycleMoved (s.cycleMoved_withdrawOverwritten v)
  | placementPointDue v => exact onStation_cycleMoved (s.cycleMoved_placementPointDue v)
  | grainDrop v => exact onStation_cycleMoved (s.cycleMoved_dropGrain v)
  | enteringRampFull v =>
    simp only [State.perform, State.rampFull]
    repeat' first | rfl | split
  | cycleStop v =>
    simp only [State.perform, State.stopCycle]
    repeat' first | rfl | split
  | accept a => exact onStation_acceptFrame s a

/-- Settling takes the owed steps off, and touches the same blocks. -/
theorem onStation_settle : OnStation { s with owed := [] } s.settle := by
  generalize hl : s.owed = l
  induction l generalizing s with
  | nil =>
    rw [State.settle_of_nil hl, ← hl]
    rfl
  | cons o rest ih =>
    rw [State.settle_cons hl]
    have hperform := onStation_perform { s with owed := rest } o
    have hrest := ih (State.perform o { s with owed := rest }) (State.perform_owed _ o)
    generalize State.perform o { s with owed := rest } = t at hperform hrest ⊢
    have hnone : OnStation { s with owed := [] } { t with owed := [] } := by
      unfold OnStation at hperform ⊢
      rw [hperform]
    exact hnone.trans hrest

theorem settle_audio : s.settle.audio = s.audio := by rw [onStation_settle]

theorem settle_clock : s.settle.clock = s.clock := by rw [onStation_settle]

theorem grown_settle : s.Grown s.settle := by
  generalize hl : s.owed = l
  induction l generalizing s with
  | nil =>
    rw [State.settle_of_nil hl]
    exact .refl s
  | cons o rest ih =>
    rw [State.settle_cons hl]
    have howed : s.Grown { s with owed := rest } := s.grown_of _ ⟨rfl, rfl, rfl, rfl, rfl, rfl, rfl, id⟩ rfl
    exact (howed.trans (State.grown_perform _ o)).trans (ih _ (State.perform_owed _ _))

theorem grown_takeOwed (o : Owed) : s.Grown (s.takeOwed o) := by
  unfold State.takeOwed
  split
  · have howed : s.Grown { s with owed := s.owed.erase o } := s.grown_of _ ⟨rfl, rfl, rfl, rfl, rfl, rfl, rfl, id⟩ rfl
    exact howed.trans (State.grown_perform _ o)
  · exact .refl s

theorem grown_takeAccepted (a : Accepted) : s.Grown (s.takeAccepted a) := by
  unfold State.takeAccepted
  split
  · exact grown_takeOwed s _
  · exact (grown_settle s).trans (State.grown_acceptFrame _ a)

theorem grown_takeOwedTick : s.Grown s.takeOwedTick := by
  unfold State.takeOwedTick
  split
  · exact (grown_takeOwed s _).trans (grown_takeOwed _ _)
  · exact .refl s

theorem grown_takeLoss : s.Grown s.takeLoss := by
  unfold State.takeLoss
  split
  · exact s.grown_loseAudio
  · exact .refl s

theorem grown_takeBreak : s.Grown s.takeBreak := by
  unfold State.takeBreak
  split
  · exact .refl s
  · exact s.grown_takeHush

theorem grown_takeSendStart : s.Grown s.takeSendStart := by
  simp only [State.takeSendStart]
  split
  · exact .refl s
  · split
    · have hpass : s.Grown s.passBoundary := by
        unfold State.passBoundary
        split
        · exact .refl s
        · exact s.grown_takeBoundary.trans (grown_settle _)
      have hset := State.grown_setLine s.passBoundary { s.passBoundary.line with
        idle := min Config.maxIdle (max s.passBoundary.line.idle
          ((s.passBoundary.line.gap s.passBoundary.straps.id).getD 0)) } id
      exact (hpass.trans hset).trans (State.grown_beginSend _)
    · exact .refl s

/-- A sample arrival moves the clock where audio is PRESENT, and no counter. -/
theorem takeSample_clock (x : Sample) :
    (s.takeSample x).clock = if s.audio.state = .present then s.clock + 1 else s.clock := by
  unfold State.takeSample
  cases h : s.audio.state with
  | absent => rfl
  | present =>
    simp only [State.positionDue, State.trimMarks, State.captureSample]
    split <;> rfl

theorem takeSample_fixed (x : Sample) : (s.takeSample x).counters = s.counters ∧ (s.takeSample x).line = s.line ∧
    (s.takeSample x).straps = s.straps ∧ (s.takeSample x).npt = s.npt ∧ (s.takeSample x).pending = s.pending ∧
    (s.takeSample x).audioIn = s.audioIn ∧ (s.takeSample x).lineIn = s.lineIn := by
  unfold State.takeSample
  split
  · exact ⟨rfl, rfl, rfl, rfl, rfl, rfl, rfl⟩
  · simp only [State.positionDue, State.trimMarks, State.captureSample]
    split <;> exact ⟨rfl, rfl, rfl, rfl, rfl, rfl, rfl⟩

end

/-! ### Commands -/

section
variable {s t : State}

/-- While RESET_N is low a command has no effect (R6). -/
theorem low_reset_takes_nothing : Clause.LowResetTakesNothing := by
  intro c s hreset hassert hrelease
  cases c with
  | resetAssert => exact absurd rfl hassert
  | resetRelease p m => exact absurd rfl (hrelease p m)
  | _ => simp [exec, execFrameSync, execSampleArrival, execLossOfAudio, execAnalysisTick, execLeaveWarming,
      execWindowOverwrite, execSegmentCompletion, execPeerEntryExpiry, execSceneDuePoint, execFrameStart,
      execCharacterReceived, execLineReturnToMark, execFrameBoundary, execClaim, execScene, execBypassOn, execBypassOff,
      execQuery, execHush, execSendStart, execEchoCheck, execStartBit, execPlacementPointDue, execFetchCompletion,
      execFetchWithdrawal, execPlaceCompletion, execGrainDrop, execEnteringRampFull, execCycleStop,
      whenReleased, hreset]

/-- Every command but the edges of RESET_N and the sample arrival keeps the fixed parts. -/
theorem exec_fixed {c : Instr} (e : exec c s = .next t) (hassert : c ≠ .resetAssert)
    (hrelease : ∀ p m, c ≠ .resetRelease p m) (hsample : ∀ x, c ≠ .sampleArrival x) : s.Fixed t :=
  (State.kept_fixed s).exec c (.refl s) e (fun h => absurd h hassert) (fun p m h => absurd h (hrelease p m))
    fun x h => absurd h (hsample x)

theorem exec_sampleArrival {x : Sample} (e : exec (.sampleArrival x) s = .next t) :
    t = if s.resetN then s.settle.takeSample x else s := by
  simp only [exec, execSampleArrival, whenReleased, Host.Outcome.next.injEq] at e
  exact e.symm

theorem sampleArrival_fixed {x : Sample} (e : exec (.sampleArrival x) s = .next t) :
    (s.counters.Grown t.counters ∧ (s.line.clash = true → t.line.clash = true)) ∧ t.straps = s.straps ∧
      t.npt = s.npt ∧ t.pending = s.pending ∧ t.audioIn = s.audioIn ∧ t.lineIn = s.lineIn := by
  rw [exec_sampleArrival e]
  split
  · obtain ⟨hfixed, hgrown⟩ := grown_settle s
    obtain ⟨hc, hl, hs, hn, hp, ha, hi⟩ := takeSample_fixed s.settle x
    rw [hc, hl, hs, hn, hp, ha, hi]
    exact ⟨⟨hgrown, hfixed.clash⟩, hfixed.straps, hfixed.npt, hfixed.pending, hfixed.audioIn, hfixed.lineIn⟩
  · exact ⟨⟨.refl _, id⟩, rfl, rfl, rfl, rfl, rfl⟩

theorem commands_leave_queue : Clause.CommandsLeaveTheQueue := by
  intro c s t e
  by_cases hassert : c = .resetAssert
  · subst hassert
    simp only [exec, execResetAssert, Host.Outcome.next.injEq] at e
    subst e
    exact ⟨rfl, rfl, rfl⟩
  by_cases hrelease : ∃ p m, c = .resetRelease p m
  · obtain ⟨p, m, rfl⟩ := hrelease
    simp only [exec, execResetRelease, Host.Outcome.next.injEq] at e
    subst e
    exact ⟨rfl, rfl, rfl⟩
  by_cases hsample : ∃ x, c = .sampleArrival x
  · obtain ⟨x, rfl⟩ := hsample
    obtain ⟨-, -, -, hqueue⟩ := sampleArrival_fixed e
    exact hqueue
  · push Not at hrelease hsample
    have h := exec_fixed e hassert hrelease hsample
    exact ⟨h.pending, h.audioIn, h.lineIn⟩

theorem straps_hold_until_reset : Clause.StrapsHoldUntilReset := by
  intro c s t hrelease e
  by_cases hassert : c = .resetAssert
  · subst hassert
    simp only [exec, execResetAssert, Host.Outcome.next.injEq] at e
    subst e
    exact ⟨rfl, rfl⟩
  by_cases hsample : ∃ x, c = .sampleArrival x
  · obtain ⟨x, rfl⟩ := hsample
    obtain ⟨-, hstraps, hnpt, -⟩ := sampleArrival_fixed e
    exact ⟨hstraps, hnpt⟩
  · push Not at hsample
    have h := exec_fixed e hassert hrelease hsample
    exact ⟨h.straps, h.npt⟩

theorem clock_moves_at_arrivals : Clause.ClockMovesAtSampleArrivalsAlone := by
  intro c s t e
  refine ⟨?_, ?_, fun hsample hassert hrelease => (exec_fixed e hassert hrelease hsample).clock⟩
  · rintro ⟨x, rfl⟩
    rw [exec_sampleArrival e]
    cases hreset : s.resetN with
    | false => simp
    | true => simp [takeSample_clock, settle_audio, settle_clock]
  · rintro (rfl | ⟨p, m, rfl⟩) <;>
    · simp only [exec, execResetAssert, execResetRelease, Host.Outcome.next.injEq] at e
      subst e
      rfl

theorem clash_flag_stays : Clause.ClashFlagStaysUntilReset := by
  intro c s t e hassert hrelease
  by_cases hsample : ∃ x, c = .sampleArrival x
  · obtain ⟨x, rfl⟩ := hsample
    exact (sampleArrival_fixed e).1.2
  · push Not at hsample
    exact (exec_fixed e hassert hrelease hsample).clash

/-- The parts of a released command let no counter fall, so it does not either. -/
theorem grown_of_released {f : State → State} (hf : ∀ s : State, s.Grown (f s)) (e : whenReleased f s = .next t) :
    s.counters.Grown t.counters := by
  simp only [whenReleased, Host.Outcome.next.injEq] at e
  subst e
  split
  · exact (hf s).2
  · exact .refl _

theorem grown_of_settled {f : State → State} (hf : ∀ s : State, s.Grown (f s))
    (e : whenReleased (fun s => f s.settle) s = .next t) : s.counters.Grown t.counters :=
  grown_of_released (fun s => (grown_settle s).trans (hf _)) e

/-- No command but an edge of RESET_N or an echo check lets a counter fall (R182). -/
theorem exec_grown {c : Instr} (e : exec c s = .next t) (hassert : c ≠ .resetAssert)
    (hrelease : ∀ p m, c ≠ .resetRelease p m) (hecho : ∀ heard, c ≠ .echoCheck heard) :
    s.counters.Grown t.counters := by
  cases c with
  | resetAssert => exact absurd rfl hassert
  | resetRelease p m => exact absurd rfl (hrelease p m)
  | echoCheck heard => exact absurd rfl (hecho heard)
  | sampleArrival x => exact (sampleArrival_fixed e).1.1
  | frameSync => exact grown_of_settled State.grown_takeFrameSync e
  | lossOfAudio => exact grown_of_settled grown_takeLoss e
  | segmentCompletion => exact grown_of_settled State.grown_completeSegment e
  | peerEntryExpiry => exact grown_of_settled State.grown_expireEntries e
  | fetchCompletion => exact grown_of_settled State.grown_completeFetch e
  | placeCompletion => exact grown_of_settled State.grown_completePlace e
  | frameStart => exact grown_of_settled State.grown_takeFrameStart e
  | startBit => exact grown_of_settled State.grown_takeStartBit e
  | characterReceived c => exact grown_of_settled (fun s => s.grown_takeChar c) e
  | lineReturnToMark => exact grown_of_settled State.grown_takeReturnToMark e
  | frameBoundary => exact grown_of_settled State.grown_takeBoundary e
  | hush => exact grown_of_settled grown_takeBreak e
  | sendStart => exact grown_of_settled grown_takeSendStart e
  | analysisTick => exact grown_of_released grown_takeOwedTick e
  | leaveWarming => exact grown_of_released (fun s => grown_takeOwed s _) e
  | windowOverwrite => exact grown_of_released (fun s => grown_takeOwed s _) e
  | sceneDuePoint => exact grown_of_released (fun s => grown_takeOwed s _) e
  | placementPointDue v => exact grown_of_released (fun s => grown_takeOwed s _) e
  | fetchWithdrawal v => exact grown_of_released (fun s => grown_takeOwed s _) e
  | grainDrop v => exact grown_of_released (fun s => grown_takeOwed s _) e
  | enteringRampFull v => exact grown_of_released (fun s => grown_takeOwed s _) e
  | cycleStop v => exact grown_of_released (fun s => grown_takeOwed s _) e
  | claim m => exact grown_of_released (fun s => grown_takeAccepted s _) e
  | scene p m => exact grown_of_released (fun s => grown_takeAccepted s _) e
  | bypassOn => exact grown_of_released (fun s => grown_takeAccepted s _) e
  | bypassOff => exact grown_of_released (fun s => grown_takeAccepted s _) e
  | query b => exact grown_of_released (fun s => grown_takeAccepted s _) e

/-- Settles O50: every part of a command lets the counters rise alone, and the echo check of a clearing REPORT sets all
twelve to 0. -/
theorem countersNeverFall : Obligations.CountersNeverFall := by
  intro c s t e hassert hrelease
  by_cases hecho : ∃ heard, c = .echoCheck heard
  · obtain ⟨heard, rfl⟩ := hecho
    simp only [exec, execEchoCheck, whenReleased, Host.Outcome.next.injEq] at e
    subst e
    split
    · rcases State.grown_takeEcho s.settle heard with h | h
      · exact .inl fun k => (((grown_settle s).2.trans h) k).1
      · exact .inr ⟨⟨heard, rfl⟩, h⟩
    · exact .inl fun k => le_refl _
  · push Not at hecho
    exact .inl fun k => (exec_grown e hassert hrelease hecho k).1

end

/-! ### The pins (R3, R4, R15, R16, R158, R169) -/

theorem voiceState_sounds_iff (st : VoiceState) :
    st.sounds = true ↔ st = .entering ∨ st = .sounding ∨ st = .gliding := by
  cases st <;> simp [VoiceState.sounds]

/-- The ten levels of a character: start bit, data bits, stop bit (R158). -/
theorem charBits_getD (c : Byte) (k : Nat) :
    (charBits c).getD k true = if k = 0 then false else if k ≤ 8 then c.getLsbD (k - 1) else true := by
  rcases k with _ | k
  · rfl
  · rw [if_neg (by omega)]
    by_cases hk : k + 1 ≤ 8
    · rw [if_pos hk]
      have : k < 8 := by omega
      simp [charBits, List.getD, List.getElem?_append, this]
    · rw [if_neg hk]
      have h8 : ¬ k < 8 := by omega
      by_cases hk9 : k = 8
      · subst hk9
        rfl
      · simp [charBits, List.getD, List.getElem?_append, h8, show k - 8 ≠ 0 by omega]

theorem lineTx_rest {s : State} (h : s.line.transmitter ≠ .sending) : s.lineTx = true := by
  have hnone : s.line.txChar = none := by
    unfold LineControl.txChar
    split
    · next hs _ => exact absurd hs h
    · rfl
  simp [State.lineTx, LineControl.tx, hnone]

theorem lineTx_sending {s : State} {f : FrameInHand} {c : Byte} (hs : s.line.transmitter = .sending)
    (hf : s.line.frameInHand = some f) (hc : f.chars[f.sent]? = some c) :
    s.lineTx = (charBits c).getD s.line.echo.length true := by
  simp [State.lineTx, LineControl.tx, LineControl.txChar, hs, hf, hc]

theorem pins_follow_state : Clause.PinsFollowTheState := by
  intro s
  refine ⟨by simp [State.faultPin], fun v => voiceState_sounds_iff _, by simp [State.lineDE, LineControl.de],
    lineTx_rest, fun f c hs hf hc => ?_, fun hout => by simp [State.adout, hout], fun f hf => ⟨?_, ?_⟩⟩
  · rw [lineTx_sending hs hf hc, charBits_getD]
  · intro slot bit x hx hbit hdriven
    have hmod : (32 * slot + bit) % 32 = bit := by omega
    have hdiv : (32 * slot + bit) / 32 = slot := by omega
    simp only [State.adout, hf, OutFrame.bit, hdriven, hmod, hdiv, List.getD, hx, Option.getD_some]
  · intro hlength hdriven
    have hpast : f.slots.getD (f.driven / 32) 0 = 0 := by
      rw [List.getD_eq_getElem?_getD, List.getElem?_eq_none (by omega)]
      rfl
    simp only [State.adout, hf, OutFrame.bit, hpast]
    split <;> simp

/-- Settles O51: the latch, the clock and the clash flag from the fixed parts, the pins from the state. -/
theorem strapsClockAndClashFlagMoveAtTheirEvents : Obligations.StrapsClockAndClashFlagMoveAtTheirEvents :=
  ⟨commands_leave_queue, straps_hold_until_reset, clock_moves_at_arrivals, clash_flag_stays, pins_follow_state⟩

/-! ### The queue and the edges of RESET_N -/

/-- Settles O1, by the front of the queue. -/
theorem stepTakesTheFrontCommand : Obligations.StepTakesTheFrontCommand := by
  intro c rest s h
  simp only [step, h]

/-- Settles O2: the reset values of the blocks are the ones that the rules give. -/
theorem resetReleaseLeavesResetValues : Obligations.ResetReleaseLeavesResetValues := fun _ _ _ => rfl

theorem reset_assert_holds_every_block : Clause.ResetAssertHoldsEveryBlock := by
  intro s
  exact ⟨_, _, rfl, rfl, rfl, rfl, rfl, rfl, fun v => by cases v <;> rfl, rfl⟩

/-- A state held in reset, at RESET_N low. -/
theorem heldInReset_of_high {s : State} (h : s.resetN = true) : s.heldInReset := fun hlow => by
  rw [h] at hlow
  cases hlow

/-- RESET_N stays as it is through the parts of a command. -/
theorem high_kept : Kept fun s => s.resetN = true where
  perform _ o _ h := (State.grown_perform _ o).1.resetN.trans h
  accept s a h := (s.grown_acceptFrame a).1.resetN.trans h
  sync s _ h := s.grown_takeFrameSync.1.resetN.trans h
  loss s _ h := s.grown_loseAudio.1.resetN.trans h
  segment s _ h := s.grown_completeSegment.1.resetN.trans h
  expire s _ h := s.grown_expireEntries.1.resetN.trans h
  fetch s _ h := s.grown_completeFetch.1.resetN.trans h
  place s _ h := s.grown_completePlace.1.resetN.trans h
  frameStart s h := s.grown_takeFrameStart.1.resetN.trans h
  startBit s h := s.grown_takeStartBit.1.resetN.trans h
  char s c h := (s.grown_takeChar c).1.resetN.trans h
  returnToMark s h := s.grown_takeReturnToMark.1.resetN.trans h
  boundary s h := s.grown_takeBoundary.1.resetN.trans h
  hush s h := s.grown_takeHush.1.resetN.trans h
  idle _ _ _ h := h
  send s h := s.grown_beginSend.1.resetN.trans h
  echo s x h := (s.fixed_takeEcho x).resetN.trans h
  hear _ _ _ h := h
  bits _ _ _ h := h
  space _ h := h
  spaceRun _ _ _ h := h

/-- The arrival of a sample leaves RESET_N as it is. -/
theorem arrival_high (s : State) (x : Sample) (_ : s.owed = []) (h : s.resetN = true) :
    ({ ((State.captureSample x s).trimMarks).positionDue with
      owed := ((State.captureSample x s).trimMarks).positionDue.owedAtArrival } : State).resetN = true := by
  simp only [State.positionDue, State.trimMarks, State.captureSample]
  split <;> exact h

/-- A bit time at RESET_N high leaves it high. -/
theorem bitTime_high {s : State} (h : s.resetN = true) : s.passBitTime.resetN = true := by
  unfold State.passBitTime
  rw [if_pos h]
  have hedges := high_kept.passEdges arrival_high (fun _ _ h => h) (fun _ _ _ _ h => h) (s.settle.audioIn.headD [])
    (s := { s.settle with audioIn := s.settle.audioIn.tail }) s.settle_owed (high_kept.settle h)
  have htimer := high_kept.timer (fun _ _ _ h => h) hedges.2 hedges.1
  unfold State.passLine
  split
  · exact high_kept.lineBit _ htimer
  · exact htimer

/-- A command but the edges of RESET_N leaves it high. -/
theorem exec_high {c : Instr} {s t : State} (h : s.resetN = true) (e : exec c s = .next t)
    (hassert : c ≠ .resetAssert) : t.resetN = true :=
  high_kept.exec c h e (fun hc => absurd hc hassert)
    (fun p m hc => by
      subst hc
      simp only [exec, execResetRelease, Host.Outcome.next.injEq] at e
      subst e
      rfl)
    fun x hc => by
      subst hc
      exact high_kept.sampleArrival arrival_high h e

/-- What the falling edge of RESET_N leaves is held in reset. -/
theorem heldInReset_resetAssert {s t : State} (e : exec .resetAssert s = .next t) : t.heldInReset := by
  simp only [exec, execResetAssert, Host.Outcome.next.injEq] at e
  subst e
  exact fun _ => rfl

/-- A command that finds every block held finds it so after it. -/
theorem exec_heldInReset {c : Instr} {s t : State} (h : s.heldInReset) (e : exec c s = .next t) : t.heldInReset := by
  by_cases hassert : c = .resetAssert
  · subst hassert
    exact heldInReset_resetAssert e
  cases hreset : s.resetN with
  | true => exact heldInReset_of_high (exec_high hreset e hassert)
  | false =>
    by_cases hrelease : ∃ p m, c = .resetRelease p m
    · obtain ⟨p, m, rfl⟩ := hrelease
      simp only [exec, execResetRelease, Host.Outcome.next.injEq] at e
      subst e
      exact heldInReset_of_high rfl
    · push Not at hrelease
      rw [low_reset_takes_nothing c s hreset hassert hrelease, Host.Outcome.next.injEq] at e
      exact e ▸ h

theorem low_reset_holds_through_steps : Clause.LowResetHoldsThroughEveryStep := by
  intro s t h e
  cases hp : s.pending with
  | nil =>
    simp only [step, hp, Host.Outcome.next.injEq] at e
    subst e
    cases hreset : s.resetN with
    | true => exact heldInReset_of_high (bitTime_high hreset)
    | false => simpa [State.passBitTime, hreset] using h
  | cons c rest =>
    simp only [step, hp] at e
    refine exec_heldInReset (fun hlow => ?_) e
    have hheld := h hlow
    exact congrArg (fun u : State => ({ u with pending := rest } : State)) hheld

/-- Settles O3: a low RESET_N takes nothing, its falling edge holds every block, and no step moves what is held. -/
theorem resetLowHoldsEveryBlock : Obligations.ResetLowHoldsEveryBlock :=
  ⟨low_reset_takes_nothing, reset_assert_holds_every_block, low_reset_holds_through_steps⟩

end Sys2Proof.FixedParts

/-! PROOF. The capture port's events (chapter 01) and the due position (sections 8.1 and 8.2): what a frame sync, an edge of
ABCLK and a sample arrival do, field by field, and which steps an arrival brings. -/

namespace Sys2Proof.Arrival

open Sys2Proof.Machine

section
variable {s : State}

theorem exec_frameSync (h : s.ready) : exec .frameSync s = .next s.takeFrameSync := whenReleased_settle h State.takeFrameSync

/-- Settles O5: an audio return, where audio was ABSENT, and the opened frame are written out. -/
theorem frameSyncOpensAnOutputFrame : Obligations.FrameSyncOpensAnOutputFrame := by
  intro s h
  rw [exec_frameSync h]
  cases ha : s.audio.state <;>
    simp [State.takeFrameSync, State.audioReturn, ha, State.openedFrame, frameSlots, drySample, Config.dryDelay, Quad.toList,
      Quad.get]

/-! ### A sample arrival -/

/-- The state after the arrival of a sample with audio PRESENT. -/
def arrived (x : Sample) (s : State) : State :=
  { ((State.captureSample x s).trimMarks).positionDue with
    owed := ((State.captureSample x s).trimMarks).positionDue.owedAtArrival }

theorem exec_sampleArrival (h : s.ready) (x : Sample) :
    exec (.sampleArrival x) s = .next (if s.audio.state = .present then arrived x s else s) := by
  have hexec : exec (.sampleArrival x) s = .next (s.takeSample x) := whenReleased_settle h (State.takeSample x)
  rw [hexec, State.takeSample]
  cases s.audio.state <;> rfl

theorem exec_sampleArrival_present (h : s.ready) (hp : s.audio.state = .present) (x : Sample) :
    exec (.sampleArrival x) s = .next (arrived x s) := by
  rw [exec_sampleArrival h, if_pos hp]

/-- What an arrival writes: the ring, the clock and the fresh count, the marks out of reach, the mix of the due position,
each channel's entry and ramp, and the steps it brings. -/
theorem arrived_eq (x : Sample) (s : State) : arrived x s = { s with
    ring := writeRing s.ring s.clock x
    clock := s.clock + 1
    audio := { s.audio with
      inputReg := x, inputBits := some Config.sampleBits, fresh := satSucc Config.ringSize s.audio.fresh }
    marks := if s.tracker = .absent then s.marks else removeOldMarks (s.clock + 1) s.marks
    coverFar := if s.tracker = .absent then s.coverFar else s.coverFar || coverTooOld (s.clock + 1) s.coverEnd
    mixer := mixPosition (s.clock + 1) s.channels s.scenes.active.rules
    channels := Quad.ofFn fun v => (s.channel v).passPosition (s.clock + 1)
    owed := (arrived x s).owed } := by
  cases h : s.tracker <;>
    simp [arrived, State.positionDue, State.trimMarks, State.captureSample, h, State.channel]

theorem arrived_clock (x : Sample) (s : State) : (arrived x s).clock = s.clock + 1 := by rw [arrived_eq]

theorem arrived_tracker (x : Sample) (s : State) : (arrived x s).tracker = s.tracker := by rw [arrived_eq]

theorem arrived_scenes (x : Sample) (s : State) : (arrived x s).scenes = s.scenes := by rw [arrived_eq]

theorem arrived_arbiter (x : Sample) (s : State) : (arrived x s).arbiter = s.arbiter := by rw [arrived_eq]

theorem arrived_ring (x : Sample) (s : State) : (arrived x s).ring = writeRing s.ring s.clock x := by rw [arrived_eq]

theorem arrived_mixer (x : Sample) (s : State) :
    (arrived x s).mixer = mixPosition (s.clock + 1) s.channels s.scenes.active.rules := by rw [arrived_eq]

theorem arrived_channels (x : Sample) (s : State) :
    (arrived x s).channels = Quad.ofFn fun v => (s.channel v).passPosition (s.clock + 1) := by rw [arrived_eq]

theorem arrived_channel (x : Sample) (s : State) (v : Voice) :
    (arrived x s).channel v = (s.channel v).passPosition (s.clock + 1) := by
  rw [arrived_eq]
  exact Quad.get_ofFn _ v

/-! ### The steps that an arrival brings -/

theorem mem_owedIf {b : Bool} {o p : Owed} : o ∈ owedIf b p ↔ b = true ∧ o = p := by
  cases b <;> simp [owedIf]

theorem mem_owedAtArrival {s : State} {o : Owed} : o ∈ s.owedAtArrival ↔
    (s.warmingOver = true ∧ o = .leaveWarming) ∨ (s.windowLost = true ∧ o = .windowOverwrite) ∨
      (∃ v, s.fetchLost v = true ∧ o = .fetchWithdrawal v) ∨
      (∃ v, (s.placementReached v = true ∧ o = .placementPointDue v) ∨ (s.grainLate v = true ∧ o = .grainDrop v) ∨
        (s.rampIsFull v = true ∧ o = .enteringRampFull v) ∨ (s.rampIsOut v = true ∧ o = .cycleStop v)) ∨
      (s.sceneIsDue = true ∧ o = .sceneDuePoint) ∨ (tickFalls s.clock = true ∧ o = .analysisTick) := by
  simp only [State.owedAtArrival, State.owedByChannel, List.mem_append, List.mem_flatMap, mem_owedIf, Voice.mem_all,
    true_and, or_assoc]

/-- The steps are read off the state at the end of the arrival. -/
theorem mem_arrived_owed {x : Sample} {o : Owed} : o ∈ (arrived x s).owed ↔ o ∈ (arrived x s).owedAtArrival := Iff.rfl

theorem passPosition_of (q : Pos) (c : Channel) : c.passPosition q =
    { c with overlap := writeOverlap c.overlap q 0, ramp := (c.passPosition q).ramp } := by
  unfold Channel.passPosition Channel.advanceRamp
  split
  · split
    · split <;> rfl
    · rfl
  all_goals rfl

end

/-! ### The conditions of the steps -/

theorem warmingOver_iff {s : State} : s.warmingOver = true ↔ s.tracker = .warming ∧ 2048 ≤ s.audio.fresh := by
  cases h : s.tracker <;> simp [State.warmingOver, h, Config.windowSize]

theorem windowLost_iff {s : State} :
    s.windowLost = true ↔ ∃ a, s.tracker = .analysing a ∧ 2048 < (s.clock - a.tick).toInt := by
  cases h : s.tracker <;> simp [State.windowLost, h, windowOverwritten, behind, Config.windowSize]

theorem sceneIsDue_iff {s : State} :
    s.sceneIsDue = true ↔ ∃ p, s.scenes.pending = some p ∧ p.condition = .atDelay s.clock := by
  cases h : s.scenes.pending <;> simp [State.sceneIsDue, h]

theorem isDue_iff {clock p : Pos} : isDue clock p = true ↔ 0 ≤ (clock - p).toInt := decide_eq_true_iff

theorem placementReached_iff {s : State} {v : Voice} : s.placementReached v = true ↔
    ∃ p, (s.channel v).placementPoint = some p ∧ 0 ≤ (s.clock - p).toInt := by
  cases h : (s.channel v).placementPoint <;> simp [State.placementReached, h, isDue, behind]

theorem fetchLost_iff {s : State} {v : Voice} : s.fetchLost v = true ↔
    ∃ m, (s.channel v).next = .fetching m ∧ 4096 ≤ (s.clock - 1 - oldestSample m).toInt := by
  cases h : (s.channel v).next <;> simp [State.fetchLost, h, grainOverwritten, behind, Config.ringSize]

/-- A grain is late where its PLACE waits, or runs and would still add it, with its first position due. -/
theorem grainLate_iff {s : State} {v : Voice} : s.grainLate v = true ↔
    ∃ g m, 0 ≤ (s.clock - firstPosition g m).toInt ∧ (Job.place v g m ∈ s.arbiter.list ∨
      ∃ f, s.arbiter.running = some { job := .place v g m, fate := f } ∧ (f = .live ∨ f = .addsOnly)) := by
  have hoverdue : ∀ j : Job, j.overdue s.clock v = true ↔
      ∃ g m, j = .place v g m ∧ 0 ≤ (s.clock - firstPosition g m).toInt := by
    intro j
    cases j with
    | place o g m =>
      simp only [Job.overdue, isDue, behind, Bool.and_eq_true, decide_eq_true_eq, Job.place.injEq]
      exact ⟨fun ⟨ho, hd⟩ => ⟨g, m, ⟨ho, rfl, rfl⟩, of_decide_eq_true hd⟩,
        fun ⟨_, _, ⟨ho, hg, hm⟩, hd⟩ => ⟨ho, decide_eq_true (hg ▸ hm ▸ hd)⟩⟩
    | fetch => simp [Job.overdue]
    | analysis => simp [Job.overdue]
  simp only [State.grainLate, Bool.or_eq_true, List.any_eq_true, Option.any_eq_true, Running.overdue, Bool.and_eq_true,
    hoverdue, decide_eq_true_eq]
  constructor
  · rintro (⟨j, hj, g, m, rfl, hd⟩ | ⟨r, hr, ⟨g, m, hj, hd⟩, hf⟩)
    · exact ⟨g, m, hd, .inl hj⟩
    · exact ⟨g, m, hd, .inr ⟨r.fate, by rw [hr, ← hj], hf⟩⟩
  · rintro ⟨g, m, hd, hj | ⟨f, hr, hf⟩⟩
    · exact .inl ⟨_, hj, g, m, rfl, hd⟩
    · exact .inr ⟨_, hr, ⟨g, m, rfl, hd⟩, hf⟩

/-- Settles O9: each step of the list is owed on its own condition, read off the state after the arrival. -/
theorem arrivalBringsItsSteps : Obligations.ArrivalBringsItsSteps := by
  intro x s h hp
  refine ⟨arrived x s, exec_sampleArrival_present h hp x, ?_, ?_, ?_, ?_, fun a => ?_, fun v => ?_⟩
  · simp [mem_arrived_owed, mem_owedAtArrival, tickFalls, Config.tickSpacing]
  · simp [mem_arrived_owed, mem_owedAtArrival, warmingOver_iff, arrived_tracker]
  · simp [mem_arrived_owed, mem_owedAtArrival, windowLost_iff, arrived_tracker]
  · simp [mem_arrived_owed, mem_owedAtArrival, sceneIsDue_iff, arrived_scenes]
  · simp [mem_arrived_owed, mem_owedAtArrival]
  · have hpoint : ((arrived x s).channel v).placementPoint = (s.channel v).placementPoint := by
      rw [arrived_channel, passPosition_of]
    have hnext : ((arrived x s).channel v).next = (s.channel v).next := by rw [arrived_channel, passPosition_of]
    refine ⟨?_, ?_, ?_, ?_, ?_⟩
    · simp [mem_arrived_owed, mem_owedAtArrival, placementReached_iff, hpoint]
    · simp [mem_arrived_owed, mem_owedAtArrival, State.rampIsFull, Config.fullRamp]
    · simp [mem_arrived_owed, mem_owedAtArrival, State.rampIsOut]
    · simp [mem_arrived_owed, mem_owedAtArrival, fetchLost_iff, hnext, arrived_clock]
    · simp [mem_arrived_owed, mem_owedAtArrival, grainLate_iff, arrived_arbiter]

/-! ### What the arrival captures (R1, R8, R9, R11, R39) -/

theorem satSucc_min {limit n : Nat} (h : n ≤ limit) : satSucc limit n = min limit (n + 1) := by
  unfold satSucc
  split <;> omega

/-- After the arrival the newest sample is the one just captured, at the clock's place before it. -/
theorem tooOld_succ (clock : Pos) (p : Pos16) :
    tooOld (clock + 1) p = decide (36864 < behind16 clock.sixteenths p) := by
  simp [tooOld, newestSample, Config.markReach]

theorem coverTooOld_succ (clock : Pos) (c : Option Pos16) :
    coverTooOld (clock + 1) c = c.any fun p => decide (36864 < behind16 clock.sixteenths p) := by
  cases c with
  | none => rfl
  | some p => exact tooOld_succ clock p

theorem removeOldMarks_succ (clock : Pos) (marks : List Mark) : removeOldMarks (clock + 1) marks =
    marks.dropWhile fun m => decide (36864 < behind16 clock.sixteenths m.pos) := by
  simp only [removeOldMarks, tooOld_succ]

theorem sampleArrival_captures : Clause.SampleArrivalCapturesTheSample := by
  intro x s h
  refine ⟨fun ha => ?_, fun hp hfresh hring => ⟨arrived x s, exec_sampleArrival_present h hp x, ?_, fun p => ?_⟩⟩
  · rw [exec_sampleArrival h, if_neg (by rw [ha]; nofun)]
  · have hmin := satSucc_min (limit := Config.ringSize) hfresh
    refine (arrived_eq x s).trans ?_
    rw [hmin, removeOldMarks_succ, coverTooOld_succ, arrived_ring, arrived_mixer, arrived_channels]
  · rw [arrived_ring]
    exact readRing_writeRing _ _ _ hring.1

/-! ### Edges of ABCLK (R1 to R4) -/

theorem passEdges_cons (e : AudioEdge) (rest : List AudioEdge) (s : State) :
    passEdges (e :: rest) s = passEdges rest (State.takeEdge e s).settle := rfl

theorem passEdges_append (l l' : List AudioEdge) (s : State) : passEdges (l ++ l') s = passEdges l' (passEdges l s) := by
  induction l generalizing s with
  | nil => rfl
  | cons e rest ih => exact ih _

theorem takeFrameSync_owed (s : State) : s.takeFrameSync.owed = s.owed := by
  simp only [State.takeFrameSync, State.audioReturn]
  split <;> rfl

section
variable {s : State}

/-- A falling edge with AFSYNC low, or high as before, moves the output frame on. -/
theorem passEdges_fall (h : s.ready) (rest : List AudioEdge) {afsync : Bool}
    (hsync : afsync = false ∨ s.audio.syncHigh = true) (hdriven : ∀ f, s.audio.out = some f → f.driven ≤ 256) :
    passEdges (.fall afsync :: rest) s = passEdges rest { s with audio := { s.audio with
      syncHigh := afsync, out := s.audio.out.map fun f => { f with driven := min 256 (f.driven + 1) } } } := by
  have hout : s.audio.out.map OutFrame.driveNext = s.audio.out.map fun f => { f with driven := min 256 (f.driven + 1) } := by
    cases ho : s.audio.out with
    | none => rfl
    | some f => simp [OutFrame.driveNext, satSucc_min (hdriven f ho), Config.frameBits]
  rw [passEdges_cons, State.takeEdge, (s.takeFall_eq afsync).2 hsync, AudioPort.passFall, hout,
    State.settle_of_nil (by exact h.2)]

/-- A rising edge within the first 23 bits shifts its bit in. -/
theorem passEdges_rise (h : s.ready) (rest : List AudioEdge) {k : Nat} (hbits : s.audio.inputBits = some k) (hk : k < 23)
    (adin : Bool) : passEdges (.rise adin :: rest) s = passEdges rest { s with audio := { s.audio with
      inputReg := shiftIn s.audio.inputReg adin, inputBits := some (k + 1) } } := by
  rw [passEdges_cons, State.takeEdge, ((s.takeRise_eq adin).2 k hbits).1 hk, State.settle_of_nil (by exact h.2)]
  rfl

/-- The 24th rising edge is the arrival of the assembled sample. -/
theorem passEdges_arrival (h : s.ready) (rest : List AudioEdge) (hbits : s.audio.inputBits = some 23) (adin : Bool) :
    ∃ t, exec (.sampleArrival (shiftIn s.audio.inputReg adin)) s = .next t ∧
      passEdges (.rise adin :: rest) s = passEdges rest t.settle := by
  have hexec : exec (.sampleArrival (shiftIn s.audio.inputReg adin)) s =
      .next (s.takeSample (shiftIn s.audio.inputReg adin)) :=
    whenReleased_settle h (State.takeSample (shiftIn s.audio.inputReg adin))
  refine ⟨_, hexec, ?_⟩
  rw [passEdges_cons, State.takeEdge, ((s.takeRise_eq adin).2 23 hbits).2.1 rfl]

end

theorem eq_shiftIn {x y : Sample} {adin : Bool}
    (h : ∀ i, i < 24 → x.getLsbD i = if i = 0 then adin else y.getLsbD (i - 1)) : x = shiftIn y adin :=
  BitVec.eq_of_getLsbD_eq fun i hi => by rw [h i hi, getLsbD_shiftIn y adin hi]

theorem edges_bring : Clause.EdgesBringSyncsBitsAndArrivals := by
  intro s rest h
  refine ⟨rfl, fun hsync => ⟨_, exec_frameSync h, ?_⟩, fun afsync hsync hdriven => passEdges_fall h rest hsync hdriven,
    fun adin hbits => ?_, fun adin k x hbits hx => ?_⟩
  · rw [passEdges_cons, State.takeEdge, (s.takeFall_eq true).1 rfl hsync,
      State.settle_of_nil ((takeFrameSync_owed s).trans h.2)]
  · have hignored : s.takeRise adin = s := by
      rcases hbits with hnone | ⟨k, hk, hlate⟩
      · exact (s.takeRise_eq adin).1 hnone
      · exact ((s.takeRise_eq adin).2 k hk).2.2 hlate
    rw [passEdges_cons, State.takeEdge, hignored, State.settle_of_nil h.2]
  · rw [eq_shiftIn hx]
    refine ⟨fun hk => passEdges_rise h rest hbits hk adin, ?_⟩
    rintro rfl
    exact passEdges_arrival h rest hbits adin

/-! ### Twenty-four bits (R1, R3) -/

/-- The edges that bring the bits 22 down to 23 - n of a sample, a falling edge before each rising one. -/
def bitEdges (x : Sample) (n : Nat) : List AudioEdge :=
  (List.range n).flatMap fun i => [.fall false, .rise (x.getLsbD (22 - i))]

theorem bitEdges_succ (x : Sample) (n : Nat) :
    bitEdges x (n + 1) = bitEdges x n ++ [.fall false, .rise (x.getLsbD (22 - n))] := by
  simp [bitEdges, List.range_succ]

/-- The register holds the first n + 1 bits of the sample. -/
def TookBits (x reg : Sample) (n : Nat) : Prop := ∀ i, i ≤ n → reg.getLsbD i = x.getLsbD (23 - n + i)

theorem tookBits_shiftIn {x reg : Sample} {n : Nat} (h : TookBits x reg n) (hn : n ≤ 22) :
    TookBits x (shiftIn reg (x.getLsbD (22 - n))) (n + 1) := by
  intro i hi
  rw [getLsbD_shiftIn _ _ (by omega)]
  by_cases h0 : i = 0
  · rw [if_pos h0, h0]
    congr 1
    omega
  · rw [if_neg h0, h (i - 1) (by omega)]
    congr 1
    omega

theorem eq_of_tookBits {x reg : Sample} {n : Nat} (h : TookBits x reg n) (hn : n = 23) : reg = x := by
  subst hn
  exact BitVec.eq_of_getLsbD_eq fun i hi => by rw [h i (by omega), Nat.sub_self, Nat.zero_add]

section
variable {s : State}

/-- The state on the way, with n + 1 bits taken. -/
def takingBits (s : State) (f : OutFrame) (reg : Sample) (n : Nat) : State :=
  { s with audio := { s.audio with
      syncHigh := if n = 0 then s.audio.syncHigh else false
      inputReg := reg
      inputBits := some (n + 1)
      out := some { f with driven := n } } }

theorem passEdges_taking (x : Sample) {f : OutFrame} (h : s.ready) (hbits : s.audio.inputBits = some 0)
    (hout : s.audio.out = some f) (hdriven : f.driven = 0) {n : Nat} (hn : n ≤ 22) :
    ∃ reg, TookBits x reg n ∧
      passEdges (.rise (x.getLsbD 23) :: bitEdges x n) s = takingBits s f reg n := by
  induction n with
  | zero =>
    refine ⟨shiftIn s.audio.inputReg (x.getLsbD 23), fun i hi => ?_, ?_⟩
    · rw [getLsbD_shiftIn _ _ (by omega), if_pos (by omega), show i = 0 by omega]
    · rw [passEdges_rise h _ hbits (by omega)]
      have hf : some { f with driven := 0 } = s.audio.out := by rw [hout, ← hdriven]
      simp only [takingBits, if_pos, hf]
      rfl
  | succ n ih =>
    obtain ⟨reg, hreg, hpass⟩ := ih (by omega)
    refine ⟨shiftIn reg (x.getLsbD (22 - n)), tookBits_shiftIn hreg (by omega), ?_⟩
    have hready : (takingBits s f reg n).ready := h
    rw [bitEdges_succ, ← List.cons_append, passEdges_append, hpass,
      passEdges_fall hready _ (.inl rfl) (fun g hg => by cases hg; simp only; omega),
      passEdges_rise (k := n + 1) (by exact h) [] (by rfl) (by omega)]
    have hmin : min 256 (n + 1) = n + 1 := by omega
    simp only [takingBits, passEdges, Option.map_some, hmin, Nat.add_one_ne_zero, if_false]

end

/-- The state that awaits the 24th bit. -/
def awaitingLast (s : State) (f : OutFrame) (reg : Sample) : State :=
  { s with audio := { s.audio with
      syncHigh := false, inputReg := reg, inputBits := some 23, out := some { f with driven := 23 } } }

theorem passEdges_awaiting {s : State} (h : s.ready) (f : OutFrame) (reg : Sample) (rest : List AudioEdge) :
    passEdges (.fall false :: rest) (takingBits s f reg 22) = passEdges rest (awaitingLast s f reg) := by
  have hready : (takingBits s f reg 22).ready := h
  rw [passEdges_fall hready _ (.inl rfl) (fun g hg => by cases hg; simp only; omega)]
  rfl

/-- An arrival takes neither the register nor the count of its bits from before it. -/
theorem arrived_awaiting (x : Sample) (s : State) (f : OutFrame) (reg : Sample) :
    arrived x (awaitingLast s f reg) = arrived x { s with audio := { s.audio with
      syncHigh := false, out := some { f with driven := 23 } } } := by
  have hcapture : State.captureSample x (awaitingLast s f reg) = State.captureSample x { s with audio := { s.audio with
      syncHigh := false, out := some { f with driven := 23 } } } := rfl
  rw [arrived, hcapture, arrived]

theorem bits_come_to_arrival (x : Sample) {s : State} {f : OutFrame} (h : s.ready) (hp : s.audio.state = .present)
    (hbits : s.audio.inputBits = some 0) (hout : s.audio.out = some f) (hdriven : f.driven = 0) :
    ∃ reg, passEdges (.rise (x.getLsbD 23) :: bitEdges x 23) s = (arrived x (awaitingLast s f reg)).settle := by
  obtain ⟨reg, hreg, hpass⟩ := passEdges_taking x h hbits hout hdriven (le_refl 22)
  have hready : (awaitingLast s f reg).ready := h
  have hlast : shiftIn reg (x.getLsbD (22 - 22)) = x :=
    eq_of_tookBits (n := 22 + 1) (tookBits_shiftIn hreg (Nat.le_refl 22)) (by decide)
  obtain ⟨t, ht, harrive⟩ := passEdges_arrival hready [] rfl (x.getLsbD (22 - 22))
  have hreg' : (awaitingLast s f reg).audio.inputReg = reg := rfl
  have hpresent : (awaitingLast s f reg).audio.state = .present := hp
  rw [hreg', hlast, exec_sampleArrival_present hready hpresent, Host.Outcome.next.injEq] at ht
  refine ⟨reg, ?_⟩
  rw [bitEdges_succ, ← List.cons_append, passEdges_append, hpass, passEdges_awaiting h, harrive, ← ht]
  rfl

theorem twentyFour_bits : Clause.TwentyFourBitsBringTheirSample := by
  intro x s f h hp hbits hout hdriven
  obtain ⟨reg, hpass⟩ := bits_come_to_arrival x h hp hbits hout hdriven
  rw [arrived_awaiting] at hpass
  exact ⟨_, exec_sampleArrival_present (s := { s with audio := { s.audio with
    syncHigh := false, out := some { f with driven := 23 } } }) h hp x, hpass⟩

/-- Settles O6: the edges shift 24 bits into the sample whose arrival is written out. -/
theorem sampleIsAssembledThenCaptured : Obligations.SampleIsAssembledThenCaptured :=
  ⟨sampleArrival_captures, edges_bring, twentyFour_bits⟩

/-! ### The due position (R89, R90, R91, R128, R139) -/

theorem passPosition_ramp (q : Pos) (c : Channel) :
    (c.state = .entering → c.rampStart = none → (c.passPosition q).ramp = c.ramp) ∧
    (∀ p, c.state = .entering → c.rampStart = some p →
      (c.passPosition q).ramp = if 0 ≤ (q - p).toInt then min (c.ramp + 1) 256 else c.ramp) ∧
    ((c.state = .sounding ∨ c.state = .gliding) → (c.passPosition q).ramp = 256) ∧
    (c.state = .leaving → (c.passPosition q).ramp = c.ramp - c.leaveRate) ∧
    ((c.state = .off ∨ c.state = .parked) → (c.passPosition q).ramp = 0) := by
  refine ⟨fun hs hp => ?_, fun p hs hp => ?_, ?_, fun hs => ?_, ?_⟩
  · simp [Channel.passPosition, Channel.advanceRamp, hs, hp]
  · simp only [Channel.passPosition, Channel.advanceRamp, hs, hp, isDue_iff]
    split <;> rfl
  · rintro (hs | hs) <;> simp [Channel.passPosition, Channel.advanceRamp, hs, Config.fullRamp]
  · simp [Channel.passPosition, Channel.advanceRamp, hs]
  · rintro (hs | hs) <;> simp [Channel.passPosition, Channel.advanceRamp, hs]

theorem due_position_advances_ramps : Clause.DuePositionAdvancesTheRamps := by
  intro x s h hp hcanonical
  refine ⟨arrived x s, exec_sampleArrival_present h hp x, fun v => ?_⟩
  rw [arrived_channel]
  refine ⟨?_, fun p => ?_, passPosition_ramp _ _⟩
  · rw [passPosition_of]
  · rw [passPosition_of]
    exact readOverlap_writeOverlap _ _ _ (hcanonical v).1

theorem mixPosition_voice (q : Pos) (channels : Quad Channel) (rules : Quad VoiceRule) (v : Voice) :
    (mixPosition q channels rules).voices.get v = voiceSample ((channels.get v).handOver q) (rules.get v).level :=
  Quad.get_ofFn _ v

theorem mixer_forms_due_position : Clause.MixerFormsTheDuePosition := by
  intro x s h hp
  refine ⟨arrived x s, exec_sampleArrival_present h hp x, fun v => ⟨?_, fun hoff hparked => ?_⟩, ?_, ?_⟩
  · rw [arrived_mixer, mixPosition_voice]
    have hsilent : voiceSample (0, 0) (s.scenes.active.rules.get v).level = 0 := by
      simp [voiceSample, roundHalfUp, saturate24, clampInt, Config.fullRamp]
    rintro (hs | hs) <;>
    · have hs' : (s.channels.get v).state = _ := hs
      simp only [Channel.handOver, hs', VoiceState.active, Bool.false_eq_true, if_false, hsilent]
  · rw [arrived_mixer, mixPosition_voice]
    have hactive : (s.channels.get v).state.active = true := by
      cases hs : (s.channels.get v).state with
      | off => exact absurd hs hoff
      | parked => exact absurd hs hparked
      | _ => rfl
    simp only [Channel.handOver, hactive, if_true, voiceSample]
    rfl
  · rw [arrived_mixer]
    simp [mixPosition, mixSamples, Voice.all, State.rule, add_assoc]
  · rw [arrived_mixer]
    simp [mixPosition, mixSamples, Voice.all, State.rule, add_assoc]

/-- Settles O7: each channel's ramp moves by its state, and the mixer takes what the channels held before. -/
theorem duePositionAdvancesRampsAndFormsTheMix : Obligations.DuePositionAdvancesRampsAndFormsTheMix :=
  ⟨due_position_advances_ramps, mixer_forms_due_position⟩

end Sys2Proof.Arrival

/-! PROOF. The mark list (section 2.5): the marks that a completion appends, the order and spacing that they keep among
themselves and with the marks before them, and the bound of 176 places. Positions are compared by how many sixteenths
they lie behind the stage clock. -/

namespace Sys2Proof.MarkList

open Sys2Proof.Machine Sys2Proof.Body Sys2Proof.Decision Sys2Proof.Arrival

/-! ### The marks of a span (R37, R38) -/

/-- How many marks a span of `len` sixteenths takes at this period. -/
theorem lt_spanCount_iff {len : Int} {period i : Nat} (hp : 1 ≤ period) :
    i < ((len + period - 1) / period).toNat ↔ ((i * period : Nat) : Int) < len := by
  have hpos : (0 : Int) < period := by omega
  rw [Int.lt_toNat, Int.lt_iff_add_one_le, Int.le_ediv_iff_mul_le hpos]
  push_cast
  constructor <;> intro h <;> linarith

/-- The places of a span's marks: whole periods from the first, before the tick and not too old. -/
def spanPlaces (clock tick : Pos) (first : Pos16) (period : Nat) : List Nat :=
  (List.range ((behind16 tick.sixteenths first + period - 1) / period).toNat).filter fun i =>
    !tooOld clock (first + BitVec.ofNat 28 (i * period))

theorem mem_spanPlaces {clock tick : Pos} {first : Pos16} {period i : Nat} (hp : 1 ≤ period) :
    i ∈ spanPlaces clock tick first period ↔ ((i * period : Nat) : Int) < behind16 tick.sixteenths first ∧
      tooOld clock (first + BitVec.ofNat 28 (i * period)) = false := by
  rw [spanPlaces, List.mem_filter, List.mem_range, lt_spanCount_iff hp, Bool.not_eq_true']

theorem spanPlaces_pairwise (clock tick : Pos) (first : Pos16) (period : Nat) :
    (spanPlaces clock tick first period).Pairwise fun i j => i < j :=
  List.pairwise_lt_range.filter _

/-- The mark at a place of a span. -/
def spanMark (first : Pos16) (period : Nat) (voiced : Bool) (i : Nat) : Mark :=
  { pos := first + BitVec.ofNat 28 (i * period), period := period, voiced := voiced }

theorem spanMarks_eq (clock tick : Pos) (first : Pos16) (period : Nat) (voiced : Bool) :
    spanMarks clock tick first period voiced =
      (spanPlaces clock tick first period).map (spanMark first period voiced) := by
  simp only [spanMarks, spanPlaces, List.filter_map]
  rfl

/-- Settles O15: the places of the span are counted by whole periods up to the tick. -/
theorem marksContinueTheirRunOrStartTheSpan : Obligations.MarksContinueTheirRunOrStartTheSpan := by
  intro clock tick coverEnd far marks reason late voiced period kept stated start first hp
  have hkind : reason.markKind = (period, voiced) := by cases reason <;> rfl
  have hkept : removeOldMarks clock marks = kept := rfl
  have hstart : spanStart clock tick coverEnd far = start := by
    cases coverEnd <;> simp only [spanStart, start, stated, late, tooOld, Bool.or_eq_true] <;> rfl
  have hfirst : firstMark kept voiced period start = first := by
    cases hl : kept.getLast? <;> simp only [firstMark, first, hl]
  refine ⟨spanPlaces clock tick first period, spanPlaces_pairwise _ _ _ _, fun i => mem_spanPlaces hp, ?_⟩
  rw [appendMarks, hkind, hkept, hstart, hfirst, spanMarks_eq]
  rfl

/-! ### How far behind the stage clock -/

theorem toNat_sixteenths (p : Pos) : p.sixteenths.toNat = 16 * p.toNat := by
  simp only [Pos.sixteenths, BitVec.toNat_append, BitVec.toNat_ofNat, Nat.zero_mod, Nat.or_zero, Nat.shiftLeft_eq]
  omega

theorem sixteenthsBack_eq (clock : Pos) (p : Pos16) :
    sixteenthsBack clock p = (268435456 - p.toNat + 16 * clock.toNat) % 268435456 := by
  rw [sixteenthsBack, BitVec.toNat_sub, toNat_sixteenths]

theorem sixteenthsBack_sixteenths (clock p : Pos) : sixteenthsBack clock p.sixteenths = 16 * (clock - p).toNat := by
  rw [sixteenthsBack_eq, toNat_sixteenths, BitVec.toNat_sub]
  omega

theorem sixteenthsBack_add (clock : Pos) (p : Pos16) (d : Nat) :
    sixteenthsBack clock (p + BitVec.ofNat 28 d) = (sixteenthsBack clock p + 268435456 - d % 268435456) % 268435456 := by
  rw [sixteenthsBack_eq, sixteenthsBack_eq, BitVec.toNat_add, BitVec.toNat_ofNat]
  omega

theorem sixteenthsBack_sub (clock : Pos) (p : Pos16) (d : Nat) :
    sixteenthsBack clock (p - BitVec.ofNat 28 d) = (sixteenthsBack clock p + d % 268435456) % 268435456 := by
  rw [sixteenthsBack_eq, sixteenthsBack_eq, BitVec.toNat_sub, BitVec.toNat_ofNat]
  have := p.isLt
  omega

/-- A distance near the clock, as a signed one. -/
theorem behind16_eq (clock : Pos) (p q : Pos16) :
    behind16 q p = ((sixteenthsBack clock p : Int) - sixteenthsBack clock q).bmod 268435456 := by
  rw [behind16, BitVec.toInt_eq_toNat_bmod, BitVec.toNat_sub, sixteenthsBack_eq, sixteenthsBack_eq]
  have hp := p.isLt
  have hq := q.isLt
  unfold Int.bmod
  dsimp only
  omega

theorem sixteenthsBack_newestSample (clock : Pos) : sixteenthsBack clock (newestSample clock) = 16 := by
  rw [newestSample, sixteenthsBack_sixteenths]
  simp

/-- Too old is more than 36,864 sixteenths behind the newest sample, which lies one sample behind the clock. -/
theorem tooOld_iff {clock : Pos} {p : Pos16} (h : sixteenthsBack clock p ≤ 100000) :
    tooOld clock p = true ↔ 36880 < sixteenthsBack clock p := by
  rw [tooOld, decide_eq_true_iff, behind16_eq clock, sixteenthsBack_newestSample, Int.bmod_eq_of_le (by omega) (by omega)]
  simp only [Config.markReach]
  omega

/-- Each arrival puts every position one sample further back. -/
theorem sixteenthsBack_succ {clock : Pos} {p : Pos16} (h : sixteenthsBack clock p ≤ 100000) :
    sixteenthsBack (clock + 1) p = sixteenthsBack clock p + 16 := by
  rw [sixteenthsBack_eq] at h ⊢
  rw [sixteenthsBack_eq, BitVec.toNat_add, show (1 : Pos).toNat = 1 from rfl]
  have := p.isLt
  omega

/-! ### Order and spacing (R35, R39) -/

/-- Mark b comes after mark a: it lies less far behind, and in one 256-sample frame at least 384 sixteenths on. -/
def Follows (clock : Pos) (a b : Mark) : Prop :=
  sixteenthsBack clock b.pos < sixteenthsBack clock a.pos ∧
    (a.pos.toNat / 4096 = b.pos.toNat / 4096 → a.pos.toNat + 384 ≤ b.pos.toNat)

section
variable {clock : Pos} {a b : Mark}

theorem follows_of_apart (h : sixteenthsBack clock b.pos + 384 ≤ sixteenthsBack clock a.pos)
    (ha : sixteenthsBack clock a.pos ≤ 36880) : Follows clock a b := by
  refine ⟨by omega, fun hframe => ?_⟩
  have := a.pos.isLt
  have := b.pos.isLt
  rw [sixteenthsBack_eq] at h ha
  rw [sixteenthsBack_eq] at h
  omega

/-- Two marks on the two sides of a frame's start lie in two frames. -/
theorem follows_across {c : Pos16} (hc : c.toNat % 4096 = 0)
    (hb : sixteenthsBack clock b.pos ≤ sixteenthsBack clock c)
    (hac : sixteenthsBack clock c < sixteenthsBack clock a.pos) (ha : sixteenthsBack clock a.pos ≤ 36880) :
    Follows clock a b := by
  refine ⟨by omega, fun hframe => ?_⟩
  have := a.pos.isLt
  have := b.pos.isLt
  have := c.isLt
  rw [sixteenthsBack_eq] at hb ha
  rw [sixteenthsBack_eq] at hb hac
  rw [sixteenthsBack_eq] at hac
  omega

theorem Follows.succ (h : Follows clock a b) (ha : sixteenthsBack clock a.pos ≤ 100000) : Follows (clock + 1) a b := by
  obtain ⟨hback, hframe⟩ := h
  refine ⟨?_, hframe⟩
  rw [sixteenthsBack_succ ha, sixteenthsBack_succ (by omega)]
  omega

end

/-- The mark list with its cover end: within reach, of the periods of R35, in order, before the cover end, and the cover
end on a tick within reach. -/
structure Marked (clock : Pos) (marks : List Mark) (cover : Option Pos16) : Prop where
  reach : ∀ m ∈ marks, sixteenthsBack clock m.pos ≤ 36880
  period : ∀ m ∈ marks, 384 ≤ m.period ∧ m.period ≤ 14336
  order : marks.Pairwise (Follows clock)
  covered : ∀ m ∈ marks, ∃ c, cover = some c ∧ sixteenthsBack clock c < sixteenthsBack clock m.pos
  tick : ∀ c, cover = some c → c.toNat % 4096 = 0 ∧ sixteenthsBack clock c ≤ 36880

theorem marked_nil (clock : Pos) : Marked clock [] none :=
  ⟨nofun, nofun, .nil, nofun, nofun⟩

/-- Nothing within reach is removed. -/
theorem removeOldMarks_of_reach {clock : Pos} {marks : List Mark} (h : ∀ m ∈ marks, sixteenthsBack clock m.pos ≤ 36880) :
    removeOldMarks clock marks = marks := by
  cases marks with
  | nil => rfl
  | cons m rest =>
    have hm := h m (.head _)
    have hyoung : tooOld clock m.pos = false := by
      rw [Bool.eq_false_iff, Ne, tooOld_iff (by omega)]
      omega
    simp [removeOldMarks, hyoung]

/-- In an ordered list the marks too old stand at the head, so that the removal leaves none. -/
theorem removeOldMarks_reach {clock : Pos} {marks : List Mark} (horder : marks.Pairwise (Follows clock))
    (hreach : ∀ m ∈ marks, sixteenthsBack clock m.pos ≤ 36880) :
    ∀ m ∈ removeOldMarks (clock + 1) marks, sixteenthsBack (clock + 1) m.pos ≤ 36880 := by
  induction marks with
  | nil => nofun
  | cons a rest ih =>
    obtain ⟨hafter, horder⟩ := List.pairwise_cons.1 horder
    have ha := hreach a (.head _)
    have ha' : sixteenthsBack (clock + 1) a.pos = sixteenthsBack clock a.pos + 16 := sixteenthsBack_succ (by omega)
    rw [removeOldMarks, List.dropWhile_cons]
    split
    · exact ih horder fun m hm => hreach m (.tail _ hm)
    · next hyoung =>
      rw [tooOld_iff (by omega)] at hyoung
      intro m hm
      rcases List.mem_cons.1 hm with rfl | hm
      · omega
      · have hlt := (hafter m hm).1
        rw [sixteenthsBack_succ (by omega)]
        omega

section
variable {clock : Pos} {marks : List Mark} {cover : Option Pos16}

/-- At an arrival the marks that fall out of reach leave, with the cover end where that falls out of it too (R36, R39). -/
theorem Marked.arrival (h : Marked clock marks cover) {cover' : Option Pos16}
    (hcover : ∀ c, cover' = some c ↔ cover = some c ∧ tooOld (clock + 1) c = false) :
    Marked (clock + 1) (removeOldMarks (clock + 1) marks) cover' := by
  have hsub : (removeOldMarks (clock + 1) marks).Sublist marks := List.dropWhile_sublist _
  have hback : ∀ m ∈ removeOldMarks (clock + 1) marks,
      sixteenthsBack (clock + 1) m.pos = sixteenthsBack clock m.pos + 16 := fun m hm =>
    sixteenthsBack_succ (by have := h.reach m (hsub.subset hm); omega)
  have hreach := removeOldMarks_reach h.order h.reach
  refine ⟨hreach, fun m hm => h.period m (hsub.subset hm), ?_, fun m hm => ?_, fun c hc => ?_⟩
  · refine (h.order.sublist hsub).imp_of_mem fun ha _ hab => hab.succ ?_
    have := h.reach _ (hsub.subset ha)
    omega
  · obtain ⟨c, hc, hlt⟩ := h.covered m (hsub.subset hm)
    have hm' := hreach m hm
    have hc' := sixteenthsBack_succ (clock := clock) (p := c) (by have := (h.tick c hc).2; omega)
    have hyoung : tooOld (clock + 1) c = false := by
      have hback' := hback m hm
      rw [Bool.eq_false_iff, Ne, tooOld_iff (by omega)]
      omega
    exact ⟨c, (hcover c).2 ⟨hc, hyoung⟩, by rw [hback m hm, hc']; omega⟩
  · obtain ⟨hc, hyoung⟩ := (hcover c).1 hc
    obtain ⟨htick, hnear⟩ := h.tick c hc
    refine ⟨htick, ?_⟩
    have hc' := sixteenthsBack_succ (clock := clock) (p := c) (by omega)
    rw [Bool.eq_false_iff, Ne, tooOld_iff (by omega)] at hyoung
    omega

/-- A place of a span lies whole periods before the span's first mark, and before the tick. -/
theorem place_back {tick : Pos} {first : Pos16} {period i : Nat} {back : Int}
    (hfirst : (sixteenthsBack clock first : Int) = back % 268435456) (hlow : -20000 ≤ back) (hhigh : back ≤ 40000)
    (htick : sixteenthsBack clock tick.sixteenths ≤ 40000) (hp : 1 ≤ period) (hi : i ∈ spanPlaces clock tick first period) :
    (sixteenthsBack clock (first + BitVec.ofNat 28 (i * period)) : Int) = back - i * period ∧
      (sixteenthsBack clock tick.sixteenths : Int) < back - i * period := by
  obtain ⟨hlen, -⟩ := (mem_spanPlaces hp).1 hi
  rw [behind16_eq clock] at hlen
  rw [sixteenthsBack_add]
  rw [← Nat.cast_mul]
  generalize i * period = d at hlen ⊢
  unfold Int.bmod at hlen
  dsimp only at hlen
  omega

/-- The last mark lies least far behind. -/
theorem Marked.last_least (h : Marked clock marks cover) {m : Mark} (hm : marks.getLast? = some m) :
    m ∈ marks ∧ ∀ a ∈ marks, sixteenthsBack clock m.pos ≤ sixteenthsBack clock a.pos := by
  obtain ⟨front, rfl⟩ := List.getLast?_eq_some_iff.1 hm
  obtain ⟨-, -, hlast⟩ := List.pairwise_append.1 h.order
  refine ⟨by simp, fun a ha => ?_⟩
  rcases List.mem_append.1 ha with ha | ha
  · exact (hlast a ha m (by simp)).1.le
  · rw [List.mem_singleton.1 ha]

/-- The span starts at the cover end, where that is within reach; elsewhere there are no marks. -/
theorem Marked.spanStart_back (h : Marked clock marks cover) {coverEnd : Option Pos16} {far : Bool}
    (hcover : cover = if far then none else coverEnd) {tick : Pos}
    (htick : sixteenthsBack clock tick.sixteenths ≤ 32768) :
    sixteenthsBack clock (spanStart clock tick coverEnd far) ≤ 36880 ∧
      ∀ a ∈ marks, cover = some (spanStart clock tick coverEnd far) := by
  have hempty : cover = none → ∀ a ∈ marks, cover = some (spanStart clock tick coverEnd far) := fun hnone a ha => by
    obtain ⟨c, hc, -⟩ := h.covered a ha
    rw [hnone] at hc
    cases hc
  cases far with
  | true =>
    refine ⟨?_, hempty hcover⟩
    rw [spanStart, Bool.true_or, if_pos rfl, sixteenthsBack_sub, sixteenthsBack_newestSample]
    decide
  | false =>
    cases coverEnd with
    | some c =>
      have hnear := (h.tick c hcover).2
      have hyoung : tooOld clock c = false := by
        rw [Bool.eq_false_iff, Ne, tooOld_iff (by omega)]
        omega
      have hstart : spanStart clock tick (some c) false = c := by simp [spanStart, hyoung]
      rw [hstart]
      exact ⟨hnear, fun _ _ => hcover⟩
    | none =>
      refine ⟨?_, hempty hcover⟩
      have hback : sixteenthsBack clock (tick - BitVec.ofNat 24 Config.tickSpacing).sixteenths =
          sixteenthsBack clock tick.sixteenths + 4096 := by
        rw [sixteenthsBack_sixteenths] at htick ⊢
        rw [sixteenthsBack_sixteenths]
        rw [BitVec.toNat_sub] at htick ⊢
        rw [BitVec.toNat_sub, BitVec.toNat_sub, BitVec.toNat_ofNat]
        have := tick.isLt
        simp only [Config.tickSpacing]
        omega
      have hyoung : tooOld clock (tick - BitVec.ofNat 24 Config.tickSpacing).sixteenths = false := by
        rw [Bool.eq_false_iff, Ne, tooOld_iff (by omega)]
        omega
      simp only [spanStart, Option.getD_none, hyoung, Bool.or_self, Bool.false_eq_true, if_false]
      omega

/-- The first mark of a span lies within reach or ahead, and a mark no further behind than it follows every mark before
the span. -/
theorem Marked.firstMark_back (h : Marked clock marks cover) {coverEnd : Option Pos16} {far : Bool}
    (hcover : cover = if far then none else coverEnd) {tick : Pos}
    (htick : sixteenthsBack clock tick.sixteenths ≤ 32768) {voiced : Bool} {period : Nat} (hlow : 384 ≤ period)
    (hhigh : period ≤ 14336) :
    ∃ back : Int, (sixteenthsBack clock (firstMark marks voiced period (spanStart clock tick coverEnd far)) : Int) =
        back % 268435456 ∧ -20000 ≤ back ∧ back ≤ 36880 ∧
      ∀ a ∈ marks, ∀ b : Mark, (sixteenthsBack clock b.pos : Int) ≤ back → Follows clock a b := by
  obtain ⟨hstart, hat⟩ := h.spanStart_back hcover htick
  have hafresh : ∃ back : Int, (sixteenthsBack clock (spanStart clock tick coverEnd far) : Int) =
      back % 268435456 ∧ -20000 ≤ back ∧ back ≤ 36880 ∧
      ∀ a ∈ marks, ∀ b : Mark, (sixteenthsBack clock b.pos : Int) ≤ back → Follows clock a b := by
    refine ⟨sixteenthsBack clock (spanStart clock tick coverEnd far), by omega, by omega, by omega, fun a ha b hb => ?_⟩
    have hc := hat a ha
    obtain ⟨c, hc', hlt⟩ := h.covered a ha
    rw [hc] at hc'
    cases hc'
    exact follows_across (h.tick _ hc).1 (by omega) hlt (h.reach a ha)
  unfold firstMark
  split
  · next m hm =>
    split
    · obtain ⟨hmem, hleast⟩ := h.last_least hm
      have hreach := h.reach m hmem
      refine ⟨(sixteenthsBack clock m.pos : Int) - period, ?_, by omega, by omega, fun a ha b hb => ?_⟩
      · rw [sixteenthsBack_add]
        omega
      · have := hleast a ha
        exact follows_of_apart (by omega) (h.reach a ha)
    · exact hafresh
  · exact hafresh

/-- A completed analysis leaves the marks in order, before its tick (R36 to R39). -/
theorem Marked.completed (h : Marked clock marks cover) {coverEnd : Option Pos16} {far : Bool}
    (hcover : cover = if far then none else coverEnd) {tick : Pos} (hframe : tick.toNat % 256 = 0)
    (htick : sixteenthsBack clock tick.sixteenths ≤ 32768)
    (hlater : ∀ c, cover = some c → sixteenthsBack clock tick.sixteenths + 4096 ≤ sixteenthsBack clock c)
    {reason : Reason} (hlow : 384 ≤ reason.markKind.1) (hhigh : reason.markKind.1 ≤ 14336) :
    Marked clock (appendMarks clock tick coverEnd far marks reason) (some tick.sixteenths) := by
  obtain ⟨back, hfirst, hback, hback', hfollows⟩ := h.firstMark_back hcover htick (voiced := reason.markKind.2) hlow hhigh
  have hsplit : appendMarks clock tick coverEnd far marks reason = marks ++
      (spanPlaces clock tick (firstMark marks reason.markKind.2 reason.markKind.1 (spanStart clock tick coverEnd far))
        reason.markKind.1).map (spanMark
          (firstMark marks reason.markKind.2 reason.markKind.1 (spanStart clock tick coverEnd far))
            reason.markKind.1 reason.markKind.2) := by
    rw [← spanMarks_eq, appendMarks, removeOldMarks_of_reach h.reach]
  rw [hsplit]
  generalize firstMark marks reason.markKind.2 reason.markKind.1 (spanStart clock tick coverEnd far) = first at hfirst
  generalize reason.markKind.1 = period at hlow hhigh
  generalize reason.markKind.2 = voiced
  have hplace : ∀ i ∈ spanPlaces clock tick first period,
      (sixteenthsBack clock (spanMark first period voiced i).pos : Int) = back - i * period ∧
        (sixteenthsBack clock tick.sixteenths : Int) < back - i * period := fun i hi =>
    place_back hfirst hback (by omega) (by omega) (by omega) hi
  have hreach : ∀ i ∈ spanPlaces clock tick first period,
      sixteenthsBack clock (spanMark first period voiced i).pos ≤ 36880 := fun i hi => by
    obtain ⟨heq, -⟩ := hplace i hi
    have : (0 : Int) ≤ i * period := by positivity
    omega
  refine ⟨fun m hm => ?_, fun m hm => ?_, ?_, fun m hm => ?_, fun c hc => ?_⟩
  · rcases List.mem_append.1 hm with hm | hm
    · exact h.reach m hm
    · obtain ⟨i, hi, rfl⟩ := List.mem_map.1 hm
      exact hreach i hi
  · rcases List.mem_append.1 hm with hm | hm
    · exact h.period m hm
    · obtain ⟨i, hi, rfl⟩ := List.mem_map.1 hm
      exact ⟨hlow, hhigh⟩
  · refine List.pairwise_append.2 ⟨h.order, List.pairwise_map.2 ?_, fun a ha b hb => ?_⟩
    · refine (spanPlaces_pairwise clock tick first period).imp_of_mem fun {i j} hi hj hij => ?_
      refine follows_of_apart ?_ (hreach i hi)
      have hgap : ((i : Int) + 1) * period ≤ j * period :=
        mul_le_mul_of_nonneg_right (by omega) (by omega)
      have := (hplace i hi).1
      have := (hplace j hj).1
      rw [add_mul, one_mul] at hgap
      omega
    · obtain ⟨i, hi, rfl⟩ := List.mem_map.1 hb
      refine hfollows a ha _ ?_
      have : (0 : Int) ≤ i * period := by positivity
      rw [(hplace i hi).1]
      omega
  · refine ⟨_, rfl, ?_⟩
    rcases List.mem_append.1 hm with hm | hm
    · obtain ⟨c, hc, hlt⟩ := h.covered m hm
      have := hlater c hc
      omega
    · obtain ⟨i, hi, rfl⟩ := List.mem_map.1 hm
      have := hplace i hi
      omega
  · cases hc
    refine ⟨?_, by omega⟩
    rw [toNat_sixteenths]
    omega

end

/-! ### Places of the list (R35) -/

/-- A place for each position within reach: eleven frames of eleven places, 384 sixteenths each. -/
def place (clock : Pos) (p : Pos16) : Nat :=
  11 * (((16 * clock.toNat + 268398576) % 4096 + 36880 - sixteenthsBack clock p) / 4096) + p.toNat % 4096 / 384

theorem place_lt (clock : Pos) (p : Pos16) : place clock p < 121 := by
  unfold place
  omega

theorem place_ne {clock : Pos} {a b : Mark} (h : Follows clock a b) (ha : sixteenthsBack clock a.pos ≤ 36880) :
    place clock a.pos ≠ place clock b.pos := by
  obtain ⟨hlt, hframe⟩ := h
  have := a.pos.isLt
  have := b.pos.isLt
  have haback := sixteenthsBack_eq clock a.pos
  have hbback := sixteenthsBack_eq clock b.pos
  unfold place
  generalize sixteenthsBack clock a.pos = ba at *
  generalize sixteenthsBack clock b.pos = bb at *
  intro heq
  have hsame : a.pos.toNat / 4096 = b.pos.toNat / 4096 := by omega
  have hapart := hframe hsame
  omega

theorem length_le_of_ordered {clock : Pos} {marks : List Mark} (horder : marks.Pairwise (Follows clock))
    (hreach : ∀ m ∈ marks, sixteenthsBack clock m.pos ≤ 36880) : marks.length ≤ 176 := by
  have hnodup : (marks.map fun m => place clock m.pos).Nodup :=
    List.pairwise_map.2 (horder.imp_of_mem fun ha _ hab => place_ne hab (hreach _ ha))
  have hsub : (marks.map fun m => place clock m.pos) ⊆ List.range 121 := fun n hn => by
    obtain ⟨m, -, rfl⟩ := List.mem_map.1 hn
    exact List.mem_range.2 (place_lt clock m.pos)
  have hlength := (hnodup.subperm hsub).length_le
  simp only [List.length_map, List.length_range] at hlength
  omega

/-! ### The law of the mark list and the analysis in flight -/

/-- The analysis in flight: of a tick whose window is not lost, or is owed to be, a frame after the cover end. -/
def InFlight (s : State) (a : Analysis) : Prop :=
  a.tick.toNat % 256 = 0 ∧
    (sixteenthsBack s.clock a.tick.sixteenths ≤ 32768 ∨
      (Owed.windowOverwrite ∈ s.owed ∧ sixteenthsBack s.clock a.tick.sixteenths ≤ 32784)) ∧
    (∀ c, s.nearCover = some c → sixteenthsBack s.clock a.tick.sixteenths + 4096 ≤ sixteenthsBack s.clock c) ∧
    ∀ k, a.search = some k → 24 ≤ k.bestLag ∧ k.bestLag ≤ 896

/-- A tick that is owed is later than the cover end. -/
def TickAhead (s : State) : Prop :=
  Owed.analysisTick ∈ s.owed → s.clock.toNat % 256 = 0 ∧ ∀ c, s.nearCover = some c → c ≠ s.clock.sixteenths

/-- The law that every step keeps. -/
structure Tracked (s : State) : Prop where
  absent : s.tracker = .absent → s.marks = [] ∧ s.coverEnd = none ∧ s.coverFar = false
  marked : Marked s.clock s.marks s.nearCover
  flight : ∀ a, s.tracker = .analysing a → InFlight s a
  ahead : TickAhead s

theorem tracked_iff (s : State) : Tracked s ↔ s.marksOrdered ∧ s.analysisPlaced := by
  constructor
  · rintro ⟨habsent, hmarked, hflight, hahead⟩
    exact ⟨⟨habsent, fun m hm => ⟨hmarked.reach m hm, hmarked.period m hm⟩, hmarked.order.imp And.left,
      hmarked.order.imp And.right, hmarked.covered⟩, hmarked.tick, hflight, hahead⟩
  · rintro ⟨⟨habsent, hreach, horder, hspaced, hcovered⟩, htick, hflight, hahead⟩
    exact ⟨habsent, ⟨fun m hm => (hreach m hm).1, fun m hm => (hreach m hm).2, horder.and hspaced, hcovered, htick⟩,
      hflight, hahead⟩

/-! ### What leaves the marks alone -/

/-- The clock and the marks are as they were, no analysis has begun, and no step has gone but a tick. -/
structure Beside (s t : State) : Prop where
  clock : t.clock = s.clock
  marks : t.marks = s.marks
  coverEnd : t.coverEnd = s.coverEnd
  coverFar : t.coverFar = s.coverFar
  tracker : t.tracker = s.tracker ∨ t.tracker = .waiting ∨ t.tracker = .warming
  window : Owed.windowOverwrite ∈ s.owed → Owed.windowOverwrite ∈ t.owed
  ahead : Owed.analysisTick ∈ t.owed → Owed.analysisTick ∈ s.owed

section
variable {s t : State}

theorem Beside.nearCover (h : Beside s t) : t.nearCover = s.nearCover := by
  rw [State.nearCover, State.nearCover, h.coverFar, h.coverEnd]

theorem Tracked.beside (k : Tracked s) (h : Beside s t) : Tracked t := by
  have hnear := h.nearCover
  obtain ⟨hclock, hmarks, hend, hfar, htracker, hwindow, htick⟩ := h
  refine ⟨fun ha => ?_, ?_, fun a ha => ?_, fun ho => ?_⟩
  · rw [hmarks, hend, hfar]
    rcases htracker with e | e | e
    · exact k.absent (e ▸ ha)
    · rw [e] at ha; cases ha
    · rw [e] at ha; cases ha
  · rw [hclock, hmarks, hnear]
    exact k.marked
  · have hs : s.tracker = .analysing a := by
      rcases htracker with e | e | e
      · exact e ▸ ha
      · rw [e] at ha; cases ha
      · rw [e] at ha; cases ha
    rw [InFlight, hclock, hnear]
    obtain ⟨hframe, hback, hlater, hlag⟩ := k.flight a hs
    exact ⟨hframe, hback.imp_right fun ⟨ho, hle⟩ => ⟨hwindow ho, hle⟩, hlater, hlag⟩
  · rw [hclock, hnear]
    exact k.ahead (htick ho)

/-- A part of the station alone has changed, and the tracker has not begun an analysis. -/
theorem beside_of_onStation (h : OnStation s t)
    (htracker : t.tracker = s.tracker ∨ t.tracker = .waiting ∨ t.tracker = .warming) : Beside s t := by
  refine ⟨?_, ?_, ?_, ?_, htracker, fun ho => ?_, fun ho => ?_⟩
  · rw [h]
  · rw [h]
  · rw [h]
  · rw [h]
  · rw [h]; exact ho
  · rw [h] at ho; exact ho

theorem beside_of_sameBody (h : SameBody s t) (howed : t.owed = s.owed) : Beside s t := by
  refine ⟨?_, ?_, ?_, ?_, .inl ?_, fun ho => howed ▸ ho, fun ho => howed ▸ ho⟩ <;> rw [h]

theorem beside_of_cycleMoved (h : s.CycleMoved t) : Beside s t := by
  refine ⟨?_, ?_, ?_, ?_, .inl ?_, fun ho => ?_, fun ho => ?_⟩
  · rw [h.1.1]
  · rw [h.1.1]
  · rw [h.1.1]
  · rw [h.1.1]
  · rw [h.1.1]
  · rw [h.1.1]; exact ho
  · rw [h.1.1] at ho; exact ho

end

/-! ### The tracker and the owed steps through the parts of a command -/

section
variable (s : State)

theorem tracker_abandonAnalysis : s.abandonAnalysis.tracker = s.tracker ∨ s.abandonAnalysis.tracker = .waiting := by
  unfold State.abandonAnalysis
  split
  · exact .inr rfl
  · exact .inl rfl

theorem tracker_sceneTakesEffect (sc : Scene) :
    (s.sceneTakesEffect sc).tracker = s.tracker ∨ (s.sceneTakesEffect sc).tracker = .waiting := by
  obtain ⟨-, hflight, hrest, -⟩ := s.sceneTakesEffect_taken sc
  by_cases hf : ∃ a, s.tracker = .analysing a
  · exact .inr (hflight hf).1
  · exact .inl (hrest hf).1

theorem tracker_acceptFrame (a : Accepted) :
    (s.acceptFrame a).tracker = s.tracker ∨ (s.acceptFrame a).tracker = .waiting := by
  cases a with
  | claim m =>
    simp only [State.acceptFrame, State.acceptClaim]
    repeat' first | exact .inl rfl | split
  | scene p m =>
    have hswitch : ∀ s : State, (s.switchScene p m).tracker = s.tracker ∨ (s.switchScene p m).tracker = .waiting :=
      fun s => by
        unfold State.switchScene
        split
        · exact tracker_sceneTakesEffect s _
        · exact .inl rfl
        · split
          · exact tracker_sceneTakesEffect s _
          · exact .inl rfl
    simp only [State.acceptFrame, State.acceptScene]
    split
    · split
      · exact hswitch (s.bump .clamp)
      · exact hswitch s
    · exact .inl rfl
  | bypassOn =>
    simp only [State.acceptFrame, State.acceptBypassOn]
    split
    · exact .inl rfl
    · simp only [State.bypassOn, State.postNoTargets_eq]
      exact .inl rfl
  | bypassOff => exact .inl rfl
  | query c => exact .inl rfl

/-- No step but the tick begins an analysis. -/
theorem tracker_perform {o : Owed} (ho : o ≠ .analysisTick) :
    (State.perform o s).tracker = s.tracker ∨ (State.perform o s).tracker = .waiting := by
  cases o with
  | analysisTick => exact absurd rfl ho
  | leaveWarming =>
    simp only [State.perform, State.leaveWarming]
    split
    · split
      · exact .inr rfl
      · exact .inl rfl
    · exact .inl rfl
  | windowOverwrite =>
    simp only [State.perform, State.overwriteWindow]
    split
    · split
      · exact tracker_abandonAnalysis s
      · exact .inl rfl
    · exact .inl rfl
  | sceneDuePoint =>
    simp only [State.perform, State.takeDueScene]
    split
    · split
      · split
        · exact tracker_sceneTakesEffect s _
        · exact .inl rfl
      · exact .inl rfl
    · exact .inl rfl
  | fetchWithdrawal v => exact .inl (by rw [State.perform, (s.cycleMoved_withdrawOverwritten v).1.1])
  | placementPointDue v => exact .inl (by rw [State.perform, (s.cycleMoved_placementPointDue v).1.1])
  | grainDrop v => exact .inl (by rw [State.perform, (s.cycleMoved_dropGrain v).1.1])
  | enteringRampFull v =>
    simp only [State.perform, State.rampFull]
    repeat' first | exact .inl rfl | split
  | cycleStop v =>
    simp only [State.perform, State.stopCycle]
    repeat' first | exact .inl rfl | split
  | accept a => exact tracker_acceptFrame s a

/-- A decision that follows a completed analysis leaves the tracker WAITING. -/
theorem tracker_takeDecision {s : State} (r : Reason) (h : s.tracker = .waiting) : (s.takeDecision r).tracker = .waiting := by
  have hprepared : (prepared r s).tracker = .waiting :=
    prepared_keeps (P := fun s => s.tracker = .waiting) (fun e h => by rw [e]; exact h)
      (fun s sc h => (tracker_sceneTakesEffect s sc).elim (fun e => e.trans h) id) (by rw [updateMap_eq]; exact h)
  have hposted : (posted r s).tracker = .waiting := by
    have hsame := onVoices_forVoices (f := State.postVoice (prepared r s).allocate.allocationBase
      (prepared r s).alloc.voices) (fun v s => onVoice_postVoice s v _ _) (prepared r s).allocate
    rw [posted, State.postAll, hsame, allocate_eq]
    exact hprepared
  rw [sameBody_takeDecision]
  exact hposted

theorem owed_takeFrameStart : s.takeFrameStart.owed = s.owed := by
  unfold State.takeFrameStart
  split <;> rfl

theorem owed_takeStartBit : s.takeStartBit.owed = s.owed := by
  unfold State.takeStartBit
  split <;> rfl

theorem owed_takeChar (c : Byte) : (s.takeChar c).owed = s.owed := by
  simp only [State.takeChar, State.appendChar]
  repeat' first | rfl | split

theorem owed_takeReturnToMark : s.takeReturnToMark.owed = s.owed := by
  unfold State.takeReturnToMark
  split <;> rfl

theorem owed_beginSend : s.beginSend.owed = s.owed := by
  unfold State.beginSend
  split <;> rfl

theorem owed_collide (f : FrameInHand) : (s.collide f).owed = s.owed := by
  simp only [State.collide]
  repeat' first | rfl | split

theorem owed_takeEcho (x : Option Byte) : (s.takeEcho x).owed = s.owed := by
  unfold State.takeEcho State.checkEcho
  split
  · split
    · split
      · rfl
      · simp only [State.sendSuccess, State.reportSuccess]
        repeat' first | rfl | split
    · exact owed_collide s _
  · rfl

/-- A frame boundary can owe the acceptance of a frame, and nothing else. -/
theorem owed_takeBoundary : s.takeBoundary.owed = s.owed ∨ ∃ a, s.takeBoundary.owed = s.owed ++ [.accept a] := by
  simp only [State.takeBoundary, State.endFrame, State.judge, State.route, State.clashTest]
  repeat' first | exact .inl rfl | exact .inr ⟨_, rfl⟩ | split

theorem owed_endSendForBreak : s.endSendForBreak.owed = s.owed := by
  unfold State.endSendForBreak
  split
  · exact owed_collide s _
  · rfl

end

/-! ### The law through the parts of a command -/

section
variable {s t : State}

/-- A list without marks and without a cover end. -/
theorem tracked_of_empty (hmarks : t.marks = []) (hend : t.coverEnd = none) (hfar : t.coverFar = false)
    (hflight : ∀ a, t.tracker ≠ .analysing a) (hahead : Owed.analysisTick ∈ t.owed → t.clock.toNat % 256 = 0) :
    Tracked t := by
  have hnear : t.nearCover = none := by rw [State.nearCover, hfar, hend]; rfl
  refine ⟨fun _ => ⟨hmarks, hend, hfar⟩, ?_, fun a ha => absurd ha (hflight a), fun ho => ⟨hahead ho, fun c hc => ?_⟩⟩
  · rw [hmarks, hnear]
    exact marked_nil _
  · rw [hnear] at hc
    cases hc

/-- A tick in WAITING begins an analysis a frame or more after the cover end (R19). -/
theorem tracked_takeTick (k : Tracked s) (hframe : s.clock.toNat % 256 = 0)
    (hnew : ∀ c, s.nearCover = some c → c ≠ s.clock.sixteenths) : Tracked s.takeTick := by
  unfold State.takeTick
  split
  · exact k
  · exact k
  · refine ⟨nofun, k.marked, fun a ha => ?_, k.ahead⟩
    cases ha
    have hback : sixteenthsBack s.clock s.clock.sixteenths = 0 := by
      rw [sixteenthsBack_sixteenths]
      simp
    refine ⟨hframe, .inl (hback.le.trans (by decide)), fun c hc => ?_, nofun⟩
    obtain ⟨hc4096, hcback⟩ := k.marked.tick c hc
    have hne : c.toNat ≠ s.clock.sixteenths.toNat := fun e => hnew c hc (BitVec.eq_of_toNat_eq e)
    change sixteenthsBack s.clock s.clock.sixteenths + 4096 ≤ sixteenthsBack s.clock c
    rw [hback]
    rw [toNat_sixteenths] at hne
    rw [sixteenthsBack_eq] at hcback ⊢
    have := c.isLt
    have := s.clock.isLt
    omega
  · exact k.beside (beside_of_sameBody (sameBody_bump s _) rfl)

/-- An overwritten window ends its analysis, so that the owed step can go (R34). -/
theorem tracked_overwriteWindow (k : Tracked s) (l : List Owed) (htick : Owed.analysisTick ∈ l → Owed.analysisTick ∈ s.owed) :
    Tracked (State.overwriteWindow { s with owed := l }) := by
  have hwaiting : ∀ t : State, t.tracker = .waiting → t.clock = s.clock → t.marks = s.marks → t.coverEnd = s.coverEnd →
      t.coverFar = s.coverFar → t.owed = l → Tracked t := fun t ht hclock hmarks hend hfar howed => by
    have hnear : t.nearCover = s.nearCover := by rw [State.nearCover, State.nearCover, hend, hfar]
    refine ⟨fun e => ?_, ?_, fun a e => ?_, fun ho => ?_⟩
    · rw [ht] at e; cases e
    · rw [hclock, hmarks, hnear]
      exact k.marked
    · rw [ht] at e; cases e
    · rw [howed] at ho
      rw [hclock, hnear]
      exact k.ahead (htick ho)
  unfold State.overwriteWindow
  split
  · next a ha =>
    have hs : s.tracker = .analysing a := ha
    split
    · refine hwaiting _ ?_ ?_ ?_ ?_ ?_ ?_ <;> simp only [State.abandonAnalysis, hs] <;> rfl
    · next hkept =>
      refine ⟨k.absent, k.marked, fun b hb => ?_, fun ho => k.ahead (htick ho)⟩
      obtain ⟨hframe, hback, hlater, hlag⟩ := k.flight b hb
      refine ⟨hframe, .inl ?_, hlater, hlag⟩
      have hab : Tracker.analysing a = .analysing b := hs.symm.trans hb
      cases hab
      rw [sixteenthsBack_sixteenths] at hback ⊢
      have hinside : ¬ (2048 : Int) < (s.clock - a.tick).toInt := fun h => hkept (decide_eq_true h)
      rw [BitVec.toInt_eq_toNat_cond] at hinside
      change 16 * (s.clock - a.tick).toNat ≤ 32768
      change 16 * (s.clock - a.tick).toNat ≤ 32768 ∨ _ ∧ 16 * (s.clock - a.tick).toNat ≤ 32784 at hback
      omega
  · next hs =>
    exact ⟨k.absent, k.marked, fun a ha => absurd ha (hs a), fun ho => k.ahead (htick ho)⟩

/-- A step is taken off the list and performed. -/
theorem tracked_perform (k : Tracked s) {o : Owed} (ho : o ∈ s.owed) :
    Tracked (State.perform o { s with owed := s.owed.erase o }) := by
  have hsub : ∀ x, x ∈ s.owed.erase o → x ∈ s.owed := fun x hx => List.mem_of_mem_erase hx
  by_cases htick : o = .analysisTick
  · subst htick
    obtain ⟨hframe, hnew⟩ := k.ahead ho
    have herased : Tracked { s with owed := s.owed.erase .analysisTick } :=
      k.beside ⟨rfl, rfl, rfl, rfl, .inl rfl, fun h => (List.mem_erase_of_ne (by decide)).2 h, hsub _⟩
    exact tracked_takeTick herased hframe hnew
  by_cases hwindow : o = .windowOverwrite
  · subst hwindow
    exact tracked_overwriteWindow k _ (hsub _)
  · have herased : Tracked { s with owed := s.owed.erase o } :=
      k.beside ⟨rfl, rfl, rfl, rfl, .inl rfl, fun h => (List.mem_erase_of_ne (Ne.symm hwindow)).2 h, hsub _⟩
    exact herased.beside (beside_of_onStation (FixedParts.onStation_perform _ o)
      ((tracker_perform _ htick).imp_right .inl))

/-! ### The end of a segment -/

theorem coarseSearch_lag (w : List Int) : 24 ≤ (coarseSearch w).bestLag ∧ (coarseSearch w).bestLag ≤ 896 := by
  obtain ⟨i, hi, -⟩ := PitchTracking.coarseSearch_mem w
  have := i.isLt
  omega

theorem refine_lag (w : List Int) (step : Nat) {best : Nat × Nat} (hlow : 24 ≤ best.1) (hhigh : best.1 ≤ 896) :
    24 ≤ (refine w step best).1 ∧ (refine w step best).1 ≤ 896 := by
  have hmem := PitchTracking.foldl_betterLag_mem best (PitchTracking.neighbourMatches w step best.1)
  rw [← PitchTracking.refine_eq_foldl] at hmem
  rcases List.mem_cons.1 hmem with h | h
  · rw [h]; exact ⟨hlow, hhigh⟩
  · obtain ⟨h24, h896, -⟩ := PitchTracking.mem_neighbourMatches.1 h
    exact ⟨h24, h896⟩

theorem octaveGuard_lag (w : List Int) {best : Nat × Nat} (hlow : 24 ≤ best.1) (hhigh : best.1 ≤ 896) :
    24 ≤ (octaveGuard w best).1 ∧ (octaveGuard w best).1 ≤ 896 := by
  simp only [octaveGuard]
  split
  · next h =>
    obtain ⟨hhalf, -⟩ := h
    have hhalf' : 24 ≤ (best.1 + 1) / 2 := hhalf
    obtain ⟨hl, hh⟩ := refine_lag w 2 (best := ((best.1 + 1) / 2, difference w ((best.1 + 1) / 2))) hhalf' (by simp only; omega)
    exact refine_lag w 1 hl hh
  · exact ⟨hlow, hhigh⟩

/-- A segment that goes on keeps its tick and its best lag in range. -/
theorem runSegment_goesOn {npt : List Nat} {w : List Int} {a b : Analysis} (h : runSegment npt w a = .goesOn b)
    (hlag : ∀ k, a.search = some k → 24 ≤ k.bestLag ∧ k.bestLag ≤ 896) :
    b.tick = a.tick ∧ ∀ k, b.search = some k → 24 ≤ k.bestLag ∧ k.bestLag ≤ 896 := by
  unfold runSegment at h
  split at h
  · simp only [levelSegment] at h
    split at h
    · cases h
    · cases h
      exact ⟨rfl, hlag⟩
  · split at h
    · cases h
      refine ⟨rfl, fun k hk => ?_⟩
      have hlag := coarseSearch_lag w
      rwa [Option.some.inj hk] at hlag
    · next k hk =>
      obtain ⟨hlow, hhigh⟩ := hlag k hk
      split at h
      · cases h
        refine ⟨rfl, fun k' hk' => ?_⟩
        cases hk'
        exact refine_lag w _ hlow hhigh
      · split at h
        · cases h
          refine ⟨rfl, fun k' hk' => ?_⟩
          cases hk'
          exact octaveGuard_lag w hlow hhigh
        · cases h

theorem unvoicedPeriod_in_range : 384 ≤ Config.unvoicedPeriod ∧ Config.unvoicedPeriod ≤ 14336 := by decide

/-- A result is of its analysis's tick, and its marks have a period of R35. -/
theorem runSegment_ends {npt : List Nat} {w : List Int} {a : Analysis} {r : ResultRecord}
    (h : runSegment npt w a = .ends r) (hlag : ∀ k, a.search = some k → 24 ≤ k.bestLag ∧ k.bestLag ≤ 896) :
    r.frame = a.tick ∧ 384 ≤ r.reason.markKind.1 ∧ r.reason.markKind.1 ≤ 14336 := by
  unfold runSegment at h
  split at h
  · simp only [levelSegment] at h
    split at h
    · cases h
      exact ⟨rfl, unvoicedPeriod_in_range⟩
    · cases h
  · split at h
    · cases h
    · next k hk =>
      obtain ⟨hlow, hhigh⟩ := hlag k hk
      split at h
      · cases h
      · split at h
        · cases h
        · cases h
          refine ⟨rfl, ?_⟩
          simp only [gradeMatch]
          split
          · exact unvoicedPeriod_in_range
          · split
            · exact unvoicedPeriod_in_range
            · exact PitchTracking.refinedPeriod_in_range w hlow hhigh

/-- A completed segment asks for the next one, or ends its analysis with a result whose marks join the list (R30). -/
theorem tracked_completeSegment (k : Tracked s) (howed : s.owed = []) : Tracked s.completeSegment := by
  have hfinish : ∀ t : State, Tracked t → Tracked t.finishJob := fun t h =>
    h.beside (beside_of_cycleMoved t.cycleMoved_finishJob)
  have hnot : ∀ o : Owed, o ∉ s.owed := fun o => by simp [howed]
  unfold State.completeSegment
  split
  · refine hfinish _ ?_
    split
    · unfold State.segmentDone
      split
      · next a ha =>
        obtain ⟨hframe, hback, hlater, hlag⟩ := k.flight a ha
        have hback' : sixteenthsBack s.clock a.tick.sixteenths ≤ 32768 := hback.resolve_right fun h => hnot _ h.1
        split
        · split
          · next b hb =>
            obtain ⟨htick, hlag'⟩ := runSegment_goesOn hb hlag
            refine ⟨nofun, k.marked, fun b' hb' => ?_, k.ahead⟩
            cases hb'
            refine ⟨htick ▸ hframe, .inl (htick ▸ hback'), ?_, hlag'⟩
            rw [htick]
            exact hlater
          · next r hr =>
            obtain ⟨hrf, hlow, hhigh⟩ := runSegment_ends hr hlag
            have hmarked := k.marked.completed (coverEnd := s.coverEnd) (far := s.coverFar) rfl hframe hback' hlater hlow hhigh
            have hwritten : Tracked (s.writeResult r) := by
              refine ⟨nofun, ?_, nofun, fun ho => absurd ho (hnot _)⟩
              simp only [State.writeResult, State.nearCover, hrf]
              exact hmarked
            exact hwritten.beside (beside_of_onStation (onStation_takeDecision _ _)
              (.inr (.inl (tracker_takeDecision _ rfl))))
        · exact k
      · exact k
    · exact k
  · exact k

theorem tracked_completeFetch (k : Tracked s) : Tracked s.completeFetch := by
  unfold State.completeFetch
  split
  · split
    · exact k.beside (beside_of_cycleMoved ((s.cycleMoved_fetchDone _ _ _).trans (State.cycleMoved_finishJob _)))
    · exact k.beside (beside_of_cycleMoved s.cycleMoved_finishJob)
  · exact k

theorem tracked_placeDone (k : Tracked s) (v : Voice) (g : Grain) (p : Pos16) (f : Fate) : Tracked (s.placeDone v g p f) := by
  have hgrain : Tracked (s.placeGrain v g p) := k.beside ⟨rfl, rfl, rfl, rfl, .inl rfl, id, id⟩
  cases f with
  | live => exact hgrain.beside (beside_of_cycleMoved (State.cycleMoved_advanceIfRunning _ v g))
  | addsOnly => exact hgrain
  | dropped => exact k.beside (beside_of_cycleMoved (s.cycleMoved_advanceIfRunning v g))
  | discarded => exact k

theorem tracked_completePlace (k : Tracked s) : Tracked s.completePlace := by
  unfold State.completePlace
  split
  · exact (tracked_placeDone k _ _ _ _).beside (beside_of_cycleMoved (State.cycleMoved_finishJob _))
  · exact k

theorem beside_audioReturn : Beside s s.audioReturn := by
  unfold State.audioReturn
  split
  · exact ⟨rfl, rfl, rfl, rfl, .inr (.inr rfl), id, id⟩
  · exact ⟨rfl, rfl, rfl, rfl, .inl rfl, id, id⟩

theorem tracked_takeFrameSync (k : Tracked s) : Tracked s.takeFrameSync :=
  (k.beside beside_audioReturn).beside (beside_of_sameBody (t := s.takeFrameSync) rfl rfl)

/-- A hush abandons the analysis and empties the list (R32). -/
theorem tracked_hushListeners (k : Tracked s) : Tracked s.hushListeners := by
  have hflight : ∀ a, s.abandonAnalysis.tracker ≠ .analysing a := fun a => by
    unfold State.abandonAnalysis
    split
    · nofun
    · next hs => exact hs a
  refine tracked_of_empty rfl rfl rfl hflight fun ho => ?_
  have ho' : Owed.analysisTick ∈ s.abandonAnalysis.owed := ho
  have hclock : s.abandonAnalysis.clock = s.clock := by rw [onStation_abandonAnalysis]
  rw [State.abandonAnalysis_owed] at ho'
  change s.abandonAnalysis.clock.toNat % 256 = 0
  rw [hclock]
  exact (k.ahead ho').1

/-- The renderer and the claims at a hush touch neither the marks nor the tracker. -/
theorem tracked_withdrawn (k : Tracked s) (l : LineControl) :
    Tracked (s.hushRenderer.withdrawClaims.setLine l) := by
  have hrenderer : Tracked s.hushRenderer := k.beside ⟨rfl, rfl, rfl, rfl, .inl rfl, id, id⟩
  generalize s.hushRenderer = t at hrenderer ⊢
  have hcleared : Tracked t.clearTargets := hrenderer.beside ⟨rfl, rfl, rfl, rfl, .inl rfl, id, id⟩
  unfold State.withdrawClaims
  generalize t.clearTargets = u at hcleared ⊢
  have hplaced := (hcleared.beside (beside_of_sameBody (sameBody_keepRecord u emptyRecord) rfl)).beside
    (beside_of_sameBody (sameBody_placeRecord _) rfl)
  exact hplaced.beside (beside_of_sameBody (sameBody_setLine _ l) rfl)

theorem tracked_takeHush (k : Tracked s) : Tracked s.takeHush := by
  have hended : Tracked s.endSendForBreak :=
    k.beside (beside_of_sameBody (sameBody_endSendForBreak s) (owed_endSendForBreak s))
  simp only [State.takeHush]
  generalize s.endSendForBreak = t at hended ⊢
  have hhushed := tracked_hushListeners ((hended.beside (beside_of_sameBody (sameBody_bump t .hush) rfl)).beside
    (beside_of_sameBody (sameBody_setLine _ ((t.bump .hush).line.breakLine (t.bump .hush).straps.id)) rfl))
  exact tracked_withdrawn hhushed _

/-- An arrival moves everything one sample back; what falls out of reach leaves, and the steps that come about with it
are owed (R34, R36, R39). -/
theorem tracked_arrival (x : Sample) (howed : s.owed = []) (k : Tracked s) : Tracked (arrived x s) := by
  have htick : Owed.analysisTick ∈ (arrived x s).owed → (arrived x s).clock.toNat % 256 = 0 := fun ho => by
    simpa [mem_arrived_owed, mem_owedAtArrival, tickFalls, Config.tickSpacing] using ho
  have hmarks : (arrived x s).marks = if s.tracker = .absent then s.marks else removeOldMarks (s.clock + 1) s.marks := by
    rw [arrived_eq]
  have hfar : (arrived x s).coverFar =
      if s.tracker = .absent then s.coverFar else s.coverFar || coverTooOld (s.clock + 1) s.coverEnd := by rw [arrived_eq]
  have hend : (arrived x s).coverEnd = s.coverEnd := by rw [arrived_eq]
  by_cases ha : s.tracker = .absent
  · obtain ⟨hnone, hend', hfar'⟩ := k.absent ha
    rw [if_pos ha] at hmarks hfar
    refine tracked_of_empty (hmarks.trans hnone) (hend.trans hend') (hfar.trans hfar') (fun a => ?_) htick
    rw [arrived_tracker, ha]
    nofun
  rw [if_neg ha] at hmarks hfar
  have hcover : ∀ c, (arrived x s).nearCover = some c ↔ s.nearCover = some c ∧ tooOld (s.clock + 1) c = false := fun c => by
    rw [State.nearCover, State.nearCover, hfar, hend]
    cases s.coverFar with
    | true => simp
    | false =>
      cases s.coverEnd with
      | none => simp
      | some d =>
        have hfell : coverTooOld (s.clock + 1) (some d) = tooOld (s.clock + 1) d := rfl
        rw [Bool.false_or, hfell]
        cases hd : tooOld (s.clock + 1) d with
        | true =>
          simp only [if_true, reduceCtorEq, false_iff, Bool.false_eq_true, if_false, Option.some.injEq]
          rintro ⟨rfl, hyoung⟩
          rw [hd] at hyoung
          cases hyoung
        | false =>
          simp only [Bool.false_eq_true, if_false, Option.some.injEq]
          exact ⟨fun h => ⟨h, h ▸ hd⟩, And.left⟩
  have hmarked : Marked (s.clock + 1) (removeOldMarks (s.clock + 1) s.marks) (arrived x s).nearCover :=
    k.marked.arrival hcover
  have hsucc : ∀ c, (arrived x s).nearCover = some c →
      sixteenthsBack (s.clock + 1) c = sixteenthsBack s.clock c + 16 := fun c hc =>
    sixteenthsBack_succ (by have := (k.marked.tick c ((hcover c).1 hc).1).2; omega)
  refine ⟨fun e => absurd ((arrived_tracker x s).symm.trans e) ha, ?_, fun a hflight => ?_, fun ho => ⟨htick ho, fun c hc => ?_⟩⟩
  · rw [arrived_clock, hmarks]
    exact hmarked
  · rw [arrived_tracker] at hflight
    obtain ⟨hframe, hback, hlater, hlag⟩ := k.flight a hflight
    have hback' : sixteenthsBack s.clock a.tick.sixteenths ≤ 32768 :=
      hback.resolve_right fun h => by rw [howed] at h; exact absurd h.1 (by simp)
    have hstep : sixteenthsBack (s.clock + 1) a.tick.sixteenths = sixteenthsBack s.clock a.tick.sixteenths + 16 :=
      sixteenthsBack_succ (by omega)
    refine ⟨hframe, ?_, fun c hc => ?_, hlag⟩
    · rw [arrived_clock, hstep]
      by_cases hlost : sixteenthsBack s.clock a.tick.sixteenths + 16 ≤ 32768
      · exact .inl hlost
      · refine .inr ⟨?_, by omega⟩
        have hwindow : 2048 < (s.clock + 1 - a.tick).toInt := by
          rw [← hstep, sixteenthsBack_sixteenths] at hlost
          rw [sixteenthsBack_sixteenths] at hstep
          rw [BitVec.toInt_eq_toNat_cond]
          omega
        rw [mem_arrived_owed, mem_owedAtArrival, windowLost_iff, arrived_tracker, arrived_clock]
        exact .inr (.inl ⟨⟨a, hflight, hwindow⟩, rfl⟩)
    · rw [arrived_clock, hstep, hsucc c hc]
      have := hlater c ((hcover c).1 hc).1
      omega
  · intro e
    have hzero : sixteenthsBack (s.clock + 1) (s.clock + 1).sixteenths = 0 := by
      rw [sixteenthsBack_sixteenths]
      simp
    have hs := hsucc c hc
    rw [e, arrived_clock, hzero] at hs
    omega

theorem tracked_keptByStep : KeptByStep Tracked where
  perform _ _ ho k := tracked_perform k ho
  accept s a k := k.beside (beside_of_onStation (FixedParts.onStation_acceptFrame s a)
    ((tracker_acceptFrame s a).imp_right .inl))
  sync _ _ k := tracked_takeFrameSync k
  loss s howed _ := tracked_of_empty rfl rfl rfl nofun fun ho => absurd (howed ▸ ho : Owed.analysisTick ∈ []) (by simp)
  segment _ howed k := tracked_completeSegment k howed
  expire s _ k := k.beside (beside_of_onStation (onStation_expireEntries s)
    (.inl (by rw [State.expireEntries, State.bumpTimes_eq])))
  fetch _ _ k := tracked_completeFetch k
  place _ _ k := tracked_completePlace k
  frameStart s k := k.beside (beside_of_sameBody (sameBody_takeFrameStart s) (owed_takeFrameStart s))
  startBit s k := k.beside (beside_of_sameBody (sameBody_takeStartBit s) (owed_takeStartBit s))
  char s c k := k.beside (beside_of_sameBody (sameBody_takeChar s c) (owed_takeChar s c))
  returnToMark s k := k.beside (beside_of_sameBody (sameBody_takeReturnToMark s) (owed_takeReturnToMark s))
  boundary s k := by
    have hsame := sameBody_takeBoundary s
    have howed : ∀ o, (∀ a, o ≠ .accept a) → (o ∈ s.takeBoundary.owed ↔ o ∈ s.owed) := fun o ho => by
      rcases owed_takeBoundary s with e | ⟨a, e⟩
      · rw [e]
      · rw [e, List.mem_append, List.mem_singleton, or_iff_left (ho a)]
    refine k.beside ⟨by rw [hsame], by rw [hsame], by rw [hsame], by rw [hsame], .inl (by rw [hsame]), ?_, ?_⟩
    · exact (howed .windowOverwrite nofun).2
    · exact (howed .analysisTick nofun).1
  hush _ k := tracked_takeHush k
  idle s _ _ k := k.beside (beside_of_sameBody (sameBody_setLine s _) rfl)
  send s k := k.beside (beside_of_sameBody (sameBody_beginSend s) (owed_beginSend s))
  echo s x k := k.beside (beside_of_sameBody (sameBody_takeEcho s x) (owed_takeEcho s x))
  hear s _ _ k := k.beside (beside_of_sameBody (sameBody_setLine s _) rfl)
  bits s _ _ k := k.beside (beside_of_sameBody (sameBody_setLine s _) rfl)
  space s k := k.beside (beside_of_sameBody (sameBody_setLine s _) rfl)
  spaceRun s _ _ k := k.beside (beside_of_sameBody (sameBody_setLine s _) rfl)
  pending _ _ k := k.beside (beside_of_sameBody rfl rfl)
  assert _ _ := tracked_of_empty rfl rfl rfl nofun fun _ => rfl
  release _ _ _ _ := tracked_of_empty rfl rfl rfl nofun fun _ => rfl
  audioIn _ _ k := k.beside (beside_of_sameBody rfl rfl)
  lineIn _ _ k := k.beside (beside_of_sameBody rfl rfl)
  fall _ _ k := k.beside (beside_of_sameBody rfl rfl)
  bit _ _ _ _ k := k.beside (beside_of_sameBody rfl rfl)
  arrival _ x howed k := tracked_arrival x howed k
  tick _ _ _ k := k.beside (beside_of_sameBody rfl rfl)

/-- Settles O54: the law of the mark list and the analysis in flight is kept by every part of a command, and a list in
order has a place of its own for each mark. -/
theorem markListStaysOrderedAndBounded : Obligations.MarkListStaysOrderedAndBounded := by
  refine ⟨fun s t hmarks hplaced e => (tracked_iff t).1 (tracked_keptByStep.stepKeeps ((tracked_iff s).2 ⟨hmarks, hplaced⟩) e),
    fun s hmarks => ?_⟩
  obtain ⟨-, hreach, horder, hspaced, -⟩ := hmarks
  exact length_le_of_ordered (horder.and hspaced) fun m hm => (hreach m hm).1

end

end Sys2Proof.MarkList

/-! PROOF. Jobs and their owners (chapter 09): a step from a state in which a running FETCH carries the fate of an
overtaken PLACE breaks the limits' law. -/

namespace Sys2Proof.Jobs

open Sys2Proof.Machine

/-- A mark whose grain's oldest sample, the one at position 0, has been overwritten at stage clock 5000. -/
def lostMark : Mark := { pos := 0, period := 16, voiced := true }

/-- A sounding channel that awaits the lost mark. -/
def awaitingChannel : Channel :=
  { resetChannel with state := .sounding, next := .fetching lostMark, cycleRunning := true }

/-- A station in which voices 0 and 1 each wait with a FETCH of their own for the same mark, while a merged FETCH of the
pair runs whose completion nobody awaits: it carries the fate that a hush gives a PLACE. -/
def overtakenFetch : State :=
  { State.reset with
    clock := 5000
    channels := ⟨awaitingChannel, awaitingChannel, resetChannel, resetChannel⟩
    arbiter :=
      { running := some { job := .fetch .v0 (some .v1) lostMark, fate := .addsOnly }
        list := [.fetch .v0 none lostMark, .fetch .v1 none lostMark] }
    owed := [.fetchWithdrawal .v0]
    pending := [.fetchWithdrawal .v0] }

/-- The station after the withdrawal of voice 0's FETCH. -/
def afterWithdrawal : State := { overtakenFetch with pending := [], owed := [] }.withdrawOverwritten .v0

theorem step_overtakenFetch : step overtakenFetch = .next afterWithdrawal := rfl

theorem overtakenFetch_awaited : overtakenFetch.arbiter.awaited =
    [.fetch .v0 none lostMark, .fetch .v1 none lostMark] := by decide

theorem overtakenFetch_withinLimits : overtakenFetch.arbiter.withinLimits := by
  rw [Arbiter.withinLimits, overtakenFetch_awaited]
  refine ⟨fun v => ?_, by decide, fun o q m hj => ?_, nofun⟩
  · cases v <;> decide
  · simp at hj

theorem overtakenFetch_jobsOwned : overtakenFetch.jobsOwned := by
  rw [State.jobsOwned, overtakenFetch_awaited]
  refine ⟨fun v g m hj => ?_, fun j hj v hv o q m he => ?_, fun t k hj => ?_, fun v => ?_⟩
  · simp at hj
  · subst he
    obtain ⟨rfl, rfl, rfl⟩ | ⟨rfl, rfl, rfl⟩ : (o = .v0 ∧ q = none ∧ m = lostMark) ∨ (o = .v1 ∧ q = none ∧ m = lostMark) := by
      simpa using hj
    · obtain rfl : Voice.v0 = v := by simpa [Job.isFetchFor] using hv
      exact ⟨⟨lostMark, rfl, rfl⟩, rfl⟩
    · obtain rfl : Voice.v1 = v := by simpa [Job.isFetchFor] using hv
      exact ⟨⟨lostMark, rfl, rfl⟩, rfl⟩
  · simp at hj
  · cases v <;> decide

/-- Refutes O55: the premises ask nothing of a running FETCH whose completion is not awaited, so it may carry the fate of
an overtaken PLACE. A withdrawal of voice 0's FETCH finds that merged FETCH not discarded yet and empties the register
of voice 1 too, whose own FETCH still waits. No hush or drop gives a FETCH that fate; the statement does not say so. -/
theorem not_jobsStayWithinTheirLimits : ¬ Obligations.JobsStayWithinTheirLimits := by
  intro h
  obtain ⟨-, ⟨-, hfetch, -⟩, -⟩ := h overtakenFetch afterWithdrawal overtakenFetch_withinLimits overtakenFetch_jobsOwned
    ⟨fun _ => rfl, fun _ => rfl⟩ step_overtakenFetch
  obtain ⟨⟨m, hnext, -⟩, -⟩ := hfetch (.fetch .v1 none lostMark) (by decide) .v1 (by decide) .v1 none lostMark rfl
  have hempty : (afterWithdrawal.channel .v1).next = .empty := by decide
  rw [hempty] at hnext
  cases hnext

end Sys2Proof.Jobs

/-! PROOF. Rounding, saturation and the gain table (section 5.6), and the state right after reset, which has every property
that a step keeps. -/

namespace Sys2Proof.Rounding

open Sys2Proof.Machine

theorem rounding_takes_halves_upward : Clause.RoundingTakesHalvesUpward := by
  refine ⟨fun n d hd => ?_, fun x => rfl⟩
  have hpos : (0 : Int) < 2 * d := by omega
  have hlow := Int.ediv_mul_le (2 * n + d) hpos.ne'
  have hhigh := Int.lt_ediv_add_one_mul_self (2 * n + d) hpos
  unfold roundHalfUp
  generalize (2 * n + d) / (2 * d) = r at hlow hhigh ⊢
  constructor <;> linarith

/-- The candidate gains of R88 hold up to the nearest one and then no more. -/
theorem gain_nearest {level : Nat} (h : level ≠ 0) :
    (2 * gain level - 1) ^ 40 * 10 ^ (127 - level) ≤ 65536 ^ 40 ∧
      65536 ^ 40 < (2 * gain level + 1) ^ 40 * 10 ^ (127 - level) := by
  have hzero : decide ((2 * 0 - 1) ^ 40 * 10 ^ (127 - level) ≤ 65536 ^ 40) = true := by simp
  have htop : decide ((2 * (0 + 2 ^ 16) - 1) ^ 40 * 10 ^ (127 - level) ≤ 65536 ^ 40) = false := by
    rw [decide_eq_false_iff_not, not_le]
    calc 65536 ^ 40 < (2 * (0 + 2 ^ 16) - 1) ^ 40 := by norm_num
      _ ≤ (2 * (0 + 2 ^ 16) - 1) ^ 40 * 10 ^ (127 - level) := Nat.le_mul_of_pos_right _ (by positivity)
  obtain ⟨hholds, hfails⟩ := PeriodTable.greatest_crosses
    (p := fun m => decide ((2 * m - 1) ^ 40 * 10 ^ (127 - level) ≤ 65536 ^ 40)) hzero htop
  rw [gain, if_neg h]
  generalize greatest _ 16 0 = g at hholds hfails ⊢
  rw [decide_eq_true_iff] at hholds
  rw [decide_eq_false_iff_not, not_le, show 2 * (g + 1) - 1 = 2 * g + 1 by omega] at hfails
  exact ⟨hholds, hfails⟩

/-- Settles O8: the quotient's bounds are those of a floor, and the bisection stops at the nearest gain. -/
theorem roundingAndGainTakeTheNearestInteger : Obligations.RoundingAndGainTakeTheNearestInteger := by
  refine ⟨rounding_takes_halves_upward, rfl, fun k => ?_⟩
  have hlevel : 127 - (127 - k.val) = k.val := by omega
  have h := gain_nearest (level := 127 - k.val) (by omega)
  rwa [hlevel] at h

end Sys2Proof.Rounding

namespace Sys2Proof.AfterReset

open Sys2Proof.Machine

theorem reset_channel (v : Voice) : State.reset.channel v = resetChannel := Quad.get_const _ v

theorem reset_voice (v : Voice) : State.reset.voice v = clearedVoice := Quad.get_const _ v

/-- Settles O60: the reset values meet each property, with no channel, voice, mark, job or entry to look at. -/
theorem resetMeetsEveryProperty : Obligations.ResetMeetsEveryProperty := by
  refine ⟨⟨⟨rfl, nofun⟩, fun v => ?_⟩, fun k => ?_, ⟨⟨by decide, .nil, nofun⟩, .nil, nofun⟩, fun v => ?_, ?_, ?_, ?_, ?_, ?_,
    ⟨fun v _ => ?_, fun v _ => ?_, fun v _ => ?_, fun v => ?_⟩, fun v w t hv _ => ?_, ⟨nofun, nofun, nofun, fun v t hv => ?_⟩,
    ⟨fun _ => rfl, fun _ => rfl⟩, fun _ => ⟨rfl, rfl, rfl, fun v => ?_⟩,
    ⟨fun _ => ⟨rfl, rfl, rfl⟩, nofun, .nil, .nil, nofun⟩, ⟨nofun, nofun, nofun⟩,
    ⟨fun v => ⟨Nat.zero_le _, Nat.zero_le _⟩, Nat.zero_le _, nofun, fun _ => rfl⟩,
    ⟨nofun, nofun, nofun, fun v => ?_⟩, nofun, ⟨rfl, rfl⟩⟩
  · rw [reset_channel]
    exact ⟨rfl, nofun⟩
  · cases k <;> exact Nat.zero_le _
  · rw [reset_channel]
    exact ⟨Nat.zero_le _, .inl rfl⟩
  · exact ⟨by decide, by decide, by decide, by decide, by decide, by decide⟩
  · exact ⟨Nat.zero_le _, nofun, nofun, nofun⟩
  · exact ⟨le_refl 16, le_refl 8, fun v => by rw [reset_voice]; exact Nat.zero_le _⟩
  · exact ⟨⟨nofun, .nil, nofun⟩, nofun⟩
  · exact fun v => by rw [reset_channel, reset_voice]; exact ⟨nofun, nofun, nofun⟩
  · rw [reset_channel]; rfl
  · rw [reset_voice]; rfl
  · have hoff : State.reset.ruleOff v = true := by cases v <;> rfl
    rw [hoff, reset_channel]
    exact ⟨nofun, fun _ => .inl rfl⟩
  · rw [reset_channel, reset_voice]; rfl
  · rw [reset_voice] at hv
    cases hv
  · rw [reset_voice] at hv
    cases hv
  · rw [reset_voice]; rfl
  · rw [reset_channel]
    exact ⟨fun _ => rfl, nofun⟩

end Sys2Proof.AfterReset

/-! PROOF. The tracker's events (sections 2.1, 2.2 and 2.4) and the loss of audio (section 1.7), each written out from its
operation. -/

namespace Sys2Proof.TrackerEvents

open Sys2Proof.Machine

/-! ### Loss of audio -/

theorem silence_eq (b : Bool) (c : Channel) : c.silence b = silentChannel
    (if c.state = .off then .off else if c.state = .parked then .parked else if b = true then .off else .parked) := by
  unfold Channel.silence Channel.stopped
  cases h : c.state <;> cases b <;> rfl

/-- Settles O10: each block's part of the loss is written out. -/
theorem lossOfAudioSilencesTheStation : Obligations.LossOfAudioSilencesTheStation := by
  intro s h hp
  have hexec : exec .lossOfAudio s = .next s.takeLoss := whenReleased_settle h State.takeLoss
  have hloss : s.takeLoss = s.loseAudio := by rw [State.takeLoss, hp]
  rw [hexec, hloss]
  refine ⟨_, rfl, rfl, LineControl.placeClaim_placed s.line emptyRecord, fun v => ⟨Quad.get_const _ v, ?_⟩⟩
  have hchannel : s.loseAudio.channel v = (s.channel v).silence (s.ruleOff v) := Quad.get_ofFn _ v
  rw [hchannel, silence_eq]
  simp only [State.ruleOff, decide_eq_true_eq]

/-! ### The end of warming, ticks and the overwritten window -/

section
variable {s : State}

/-- The command of an owed step, at RESET_N high. -/
theorem takeOwed_performs {o : Owed} (hreset : s.resetN = true) (ho : o ∈ s.owed) :
    whenReleased (fun s => s.takeOwed o) s = .next (State.perform o { s with owed := s.owed.erase o }) := by
  simp [whenReleased, hreset, State.takeOwed_of_mem ho]

theorem leaveWarming_of_warming (hw : s.tracker = .warming) (hfresh : 2048 ≤ s.audio.fresh) :
    s.leaveWarming = { s with tracker := .waiting } := by
  simp only [State.leaveWarming, hw, Config.windowSize, hfresh, if_true]

theorem warming_ends_in_waiting : Clause.WarmingEndsInWaiting := by
  intro s hreset ho hw hfresh
  exact (takeOwed_performs hreset ho).trans (congrArg _ (leaveWarming_of_warming hw hfresh))

theorem exec_analysisTick (hreset : s.resetN = true) (ho : Owed.analysisTick ∈ s.owed) :
    exec .analysisTick s = .next ((s.takeOwed .leaveWarming).takeOwed .analysisTick) := by
  simp [exec, execAnalysisTick, whenReleased, hreset, State.takeOwedTick, ho]

/-- A tick that stays owed while the end of WARMING is taken finds the tracker WAITING. -/
theorem takeOwed_tick_of_waiting {s1 : State} (ho : Owed.analysisTick ∈ s1.owed) (hw : s1.tracker = .waiting) :
    ∃ b, s1.takeOwed .analysisTick = { s1 with
        tracker := .analysing
          { tick := s1.clock, gate := s1.scenes.active.gate, threshold := s1.scenes.active.threshold, segment := 1,
            level := none, search := none }
        arbiter := b
        owed := s1.owed.erase .analysisTick } ∧
      (s1.arbiter.running = none → b.GrantedFrom (s1.arbiter.list ++ [.analysis s1.clock 1])) ∧
      (s1.arbiter.running ≠ none → b = { s1.arbiter with list := s1.arbiter.list ++ [.analysis s1.clock 1] }) := by
  obtain ⟨b, hb, hfree, hbusy⟩ := State.request_from { s1 with
    owed := s1.owed.erase .analysisTick, tracker := .analysing (newAnalysis s1.clock s1.scenes.active) }
    (.analysis s1.clock 1)
  refine ⟨b, ?_, hfree, hbusy⟩
  rw [State.takeOwed_of_mem ho]
  simp only [State.perform, State.takeTick, hw]
  exact hb

theorem tick_starts_an_analysis_or_is_late : Clause.TickStartsAnAnalysisOrIsLate := by
  intro s hreset ho
  refine ⟨?_, ?_, fun hno hw => ?_⟩
  · rintro s1 (⟨rfl, hno, hw⟩ | ⟨rfl, hend, hw, hfresh⟩)
    · rw [exec_analysisTick hreset ho, State.takeOwed_of_not_mem hno]
      obtain ⟨b, hb, hgrant⟩ := takeOwed_tick_of_waiting ho hw
      exact ⟨b, congrArg _ hb, hgrant⟩
    · have hwaiting : s.takeOwed .leaveWarming =
          { s with tracker := .waiting, owed := s.owed.erase .leaveWarming } := by
        rw [State.takeOwed_of_mem hend]
        exact leaveWarming_of_warming hw hfresh
      have htick : Owed.analysisTick ∈ s.owed.erase .leaveWarming := (List.mem_erase_of_ne (by decide)).2 ho
      rw [exec_analysisTick hreset ho, hwaiting]
      obtain ⟨b, hb, hgrant⟩ := takeOwed_tick_of_waiting
        (s1 := { s with tracker := .waiting, owed := s.owed.erase .leaveWarming }) htick rfl
      exact ⟨b, congrArg _ hb, hgrant⟩
  · rintro hno ⟨a, ha⟩ hlate
    rw [exec_analysisTick hreset ho, State.takeOwed_of_not_mem hno, State.takeOwed_of_mem ho]
    simp only [State.perform, State.takeTick, ha, State.bump, Counters.bump, satSucc_eq_min _ hlate]
  · rw [exec_analysisTick hreset ho, State.takeOwed_of_not_mem hno, State.takeOwed_of_mem ho]
    simp only [State.perform, State.takeTick, hw]

theorem window_overwrite_abandons : Clause.WindowOverwriteAbandonsTheAnalysis := by
  intro s a hreset ho ha hlost hlate
  refine (takeOwed_performs hreset ho).trans ?_
  have hover : windowOverwritten s.clock a = true := decide_eq_true hlost
  simp only [State.perform, State.overwriteWindow, ha, hover, if_true, State.abandonAnalysis, State.bump, Counters.bump,
    satSucc_eq_min _ hlate, Arbiter.withdrawAnalysis]

/-! ### Segments -/

theorem exec_segmentCompletion (h : s.ready) : exec .segmentCompletion s = .next s.completeSegment :=
  whenReleased_settle h State.completeSegment

theorem completeSegment_of_running {tick : Pos} {k : Nat} {f : Fate}
    (hr : s.arbiter.running = some { job := .analysis tick k, fate := f }) :
    s.completeSegment = (if f = .live then s.segmentDone tick else s).finishJob := by
  simp only [State.completeSegment, hr]

theorem segment_completion_goes_on : Clause.SegmentCompletionGoesOn := by
  intro s tick k f h hr
  refine ⟨?_, fun hdead => ?_⟩
  · rintro a a' rfl ha rfl hrun
    rw [exec_segmentCompletion h, completeSegment_of_running hr, if_pos rfl]
    obtain ⟨b, hb, -, hbusy⟩ := State.request_from { s with tracker := .analysing a' } (.analysis a.tick a'.segment)
    have hdone : s.segmentDone a.tick = { s with tracker := .analysing a', arbiter := b } := by
      simp only [State.segmentDone, ha, if_true, hrun]
      exact hb
    have hlist : b.list = s.arbiter.list ++ [.analysis a.tick a'.segment] := by
      rw [hbusy (by rw [hr]; nofun)]
    rw [hdone]
    obtain ⟨c, hc, hgrant⟩ := State.finishJob_from { s with tracker := .analysing a', arbiter := b }
    refine ⟨c, congrArg _ hc, ?_⟩
    rw [← hlist]
    exact hgrant
  · have hsame : (if f = .live then s.segmentDone tick else s) = s := by
      split
      · next hlive =>
        have hother := hdead.resolve_left (fun hne => hne hlive)
        unfold State.segmentDone
        split
        · next a ha => rw [if_neg (hother a ha)]
        · rfl
      · rfl
    rw [exec_segmentCompletion h, completeSegment_of_running hr, hsame]
    obtain ⟨b, hb, hgrant⟩ := s.finishJob_from
    exact ⟨b, congrArg _ hb, hgrant⟩

/-- Settles O11: each event of the tracker is its operation, on the owed step or on the running segment. -/
theorem trackerMovesAtItsEvents : Obligations.TrackerMovesAtItsEvents :=
  ⟨warming_ends_in_waiting, tick_starts_an_analysis_or_is_late, window_overwrite_abandons, segment_completion_goes_on⟩

end

end Sys2Proof.TrackerEvents

/-! PROOF. What an analysis completion leads to (sections 2.3, 7.2, 7.6 and 7.7): the tracker's part, the decision that
follows, its record, and the grant, each field of the state written out. -/

namespace Sys2Proof.DecisionEffects

open Sys2Proof.Machine Sys2Proof.Body Sys2Proof.Decision Sys2Proof.PassLaws Sys2Proof.TrackerEvents

/-! ### The parts of a decision -/

section
variable {s : State} {r : Reason}

/-- A scene that waits for rest touches the scenes, the voices and the channels, where no analysis is in flight. -/
theorem takeRestScene_eq (h : ¬ ∃ a, s.tracker = .analysing a) : s.takeRestScene = { s with
    scenes := s.takeRestScene.scenes
    alloc := { s.alloc with voices := s.takeRestScene.alloc.voices }
    channels := s.takeRestScene.channels } := by
  have hscene : ∀ sc, s.sceneTakesEffect sc = { s with
      scenes := (s.sceneTakesEffect sc).scenes
      alloc := { s.alloc with voices := (s.sceneTakesEffect sc).alloc.voices }
      channels := (s.sceneTakesEffect sc).channels } := fun sc => by
    obtain ⟨e, -, hrest, -⟩ := s.sceneTakesEffect_taken sc
    obtain ⟨htracker, harbiter⟩ := hrest h
    generalize s.sceneTakesEffect sc = t at e htracker harbiter ⊢
    rw [e, htracker, harbiter]
  unfold State.takeRestScene
  split
  · split
    · exact hscene _
    · rfl
  · rfl

theorem bumpTimes_park (n : Nat) (s : State) : (State.bumpTimes .park n s).counters =
    { s.counters with park := (State.bumpTimes .park n s).counters.park } := by
  induction n generalizing s with
  | zero => rfl
  | succ n ih => exact ih (s.bump .park)

theorem bumpTimes_expire_park (n : Nat) (s : State) :
    (State.bumpTimes .expire n s).counters.park = s.counters.park := by
  induction n generalizing s with
  | zero => rfl
  | succ n ih => exact ih (s.bump .expire)

/-- PARK alone among the counters moves in the passes (R116). -/
theorem allocate_counters (s : State) :
    s.allocate.counters = { s.counters with park := s.allocate.counters.park } := by
  unfold State.allocate
  split
  · exact bumpTimes_park _ _
  · rfl

theorem postAll_eq (s : State) (before : Quad VoiceAlloc) : OnVoices s (s.postAll before) :=
  onVoices_forVoices (fun v s => onVoice_postVoice s v _ _) s

/-- The state after the first two steps of a decision. -/
theorem prepared_eq (h : ¬ ∃ a, s.tracker = .analysing a) : prepared r s = { s with
    follower := followerStep r s.follower
    claimQueue := []
    map := (drainAndAge s.claimQueue s.map).filter fun e => !e.expired
    scenes := (prepared r s).scenes
    alloc := { s.alloc with
      voices := (prepared r s).alloc.voices
      sinceSend := satSucc Config.refreshDecisions s.alloc.sinceSend
      sincePlacement := satSucc Config.placementLimit s.alloc.sincePlacement }
    channels := (prepared r s).channels
    counters := ({ s with follower := followerStep r s.follower } : State).updateMap.counters } := by
  have hmap := updateMap_eq { s with follower := followerStep r s.follower }
  have hrest := takeRestScene_eq (s := ({ s with follower := followerStep r s.follower } : State).updateMap)
    (by rw [hmap]; exact h)
  unfold prepared
  generalize ({ s with follower := followerStep r s.follower } : State).updateMap.takeRestScene = t at hrest ⊢
  rw [hrest]
  generalize ({ s with follower := followerStep r s.follower } : State).updateMap = u at hmap ⊢
  rw [hmap]
  rfl

/-- The state after the postings. -/
theorem posted_eq (h : ¬ ∃ a, s.tracker = .analysing a) : posted r s = { s with
    follower := followerStep r s.follower
    claimQueue := []
    map := (drainAndAge s.claimQueue s.map).filter fun e => !e.expired
    scenes := (prepared r s).scenes
    alloc := { s.alloc with
      voices := (posted r s).alloc.voices
      sinceSend := satSucc Config.refreshDecisions s.alloc.sinceSend
      sincePlacement := satSucc Config.placementLimit s.alloc.sincePlacement }
    channels := (posted r s).channels
    arbiter := (posted r s).arbiter
    counters := { ({ s with follower := followerStep r s.follower } : State).updateMap.counters with
      park := (posted r s).counters.park } } := by
  have hprepared := prepared_eq (r := r) h
  have hpost := postAll_eq (prepared r s).allocate (prepared r s).alloc.voices
  have hcounters := allocate_counters (prepared r s)
  have halloc := allocate_eq (prepared r s)
  unfold posted
  generalize (prepared r s).allocate.postAll (prepared r s).alloc.voices = t at hpost ⊢
  unfold OnVoices at hpost
  rw [hpost, halloc]
  generalize hc : (prepared r s).allocate.counters = c at hcounters ⊢
  rw [hcounters]
  generalize (prepared r s).allocate.alloc.voices = vs
  generalize prepared r s = p at hprepared ⊢
  rw [hprepared]

end

/-! ### The completion and its decision -/

/-- The state that the completion of an ended analysis leaves. -/
def decided (r : ResultRecord) (s : State) : State := ((s.writeResult r).takeDecision r.reason).finishJob

/-- The decision's state before its record is tested for sending. -/
def recorded (r : ResultRecord) (s : State) : State := (posted r.reason (s.writeResult r)).recordDecision

theorem decided_of_recorded (r : ResultRecord) (s : State) : decided r s = (recorded r s).sendTest.finishJob := rfl

section
variable {s : State} {a : Analysis} {k : Nat} {r : ResultRecord}

theorem runSegment_frame {npt : List Nat} {w : List Int} (h : runSegment npt w a = .ends r) : r.frame = a.tick := by
  unfold runSegment at h
  split at h
  · simp only [levelSegment] at h
    split at h <;> cases h
    rfl
  · split at h
    · cases h
    · split at h
      · cases h
      · split at h
        · cases h
        · cases h
          rfl

/-- A completion whose analysis ends is taken by its decision. -/
theorem exec_decided (h : s.ready) (hr : s.arbiter.running = some { job := .analysis a.tick k, fate := .live })
    (ha : s.tracker = .analysing a) (hrun : runSegment s.npt (analysisWindow s.ring a.tick) a = .ends r) :
    exec .segmentCompletion s = .next (decided r s) := by
  rw [exec_segmentCompletion h, completeSegment_of_running hr, if_pos rfl, State.segmentDone, ha]
  simp only [if_true, hrun]
  rfl

theorem sendTest_eq (s : State) : s.sendTest = { s with
    line := if s.sendDue then s.line.placeClaim s.alloc.record else s.line
    alloc := { s.alloc with sincePlacement := if s.sendDue then 0 else s.alloc.sincePlacement } } := by
  unfold State.sendTest
  split <;> rfl

/-- The counters before a decision's passes: EXPIRE has counted the entries that have gone. -/
def expiredCounters (r : ResultRecord) (s : State) : Counters :=
  ({ s.writeResult r with follower := followerStep r.reason s.follower } : State).updateMap.counters

theorem recorded_eq (r : ResultRecord) (s : State) : recorded r s = { s with
    result := r
    marks := appendMarks s.clock r.frame s.coverEnd s.coverFar s.marks r.reason
    coverEnd := some r.frame.sixteenths
    coverFar := false
    tracker := .waiting
    follower := followerStep r.reason s.follower
    claimQueue := []
    map := (drainAndAge s.claimQueue s.map).filter fun e => !e.expired
    scenes := (prepared r.reason (s.writeResult r)).scenes
    alloc := { s.alloc with
      voices := (recorded r s).alloc.voices
      record := buildRecord (followerStep r.reason s.follower).heldNote (recorded r s).alloc.voices
      sinceSend := satSucc Config.refreshDecisions s.alloc.sinceSend
      sincePlacement := satSucc Config.placementLimit s.alloc.sincePlacement }
    channels := (recorded r s).channels
    arbiter := (recorded r s).arbiter
    counters := { expiredCounters r s with park := (recorded r s).counters.park } } := by
  have hposted := posted_eq (r := r.reason) (s := s.writeResult r) (by rintro ⟨a, ha⟩; cases ha)
  unfold recorded
  generalize posted r.reason (s.writeResult r) = t at hposted ⊢
  rw [hposted]
  rfl

/-- Placing the record and the grant touch the line, the count of decisions since a placement, and the arbiter. -/
theorem decided_eq (r : ResultRecord) (s : State) : decided r s = { recorded r s with
    alloc := { (recorded r s).alloc with sincePlacement := (decided r s).alloc.sincePlacement }
    line := (decided r s).line
    arbiter := (decided r s).arbiter } := by
  rw [decided_of_recorded]
  generalize recorded r s = t
  rw [sendTest_eq]
  rfl

/-- What a decision does to the line, and to the count of decisions since a placement (R121). -/
theorem decided_sends (r : ResultRecord) (s : State) :
    (decided r s).line = (if (recorded r s).sendDue then s.line.placeClaim (recorded r s).alloc.record else s.line) ∧
    (decided r s).alloc.sincePlacement =
      if (recorded r s).sendDue then 0 else satSucc Config.placementLimit s.alloc.sincePlacement := by
  have hline : (recorded r s).line = s.line := by rw [recorded_eq]
  have hcount : (recorded r s).alloc.sincePlacement = satSucc Config.placementLimit s.alloc.sincePlacement := by
    rw [recorded_eq]
  rw [decided_of_recorded, ← hline, ← hcount]
  generalize recorded r s = t
  rw [sendTest_eq]
  exact ⟨rfl, rfl⟩

/-- The grant at the end of a completion is made from the jobs that wait after the postings. -/
theorem decided_grant (r : ResultRecord) (s : State) :
    (decided r s).arbiter.GrantedFrom (recorded r s).arbiter.list := by
  have hlist : (recorded r s).sendTest.arbiter.list = (recorded r s).arbiter.list := by rw [sendTest_eq]
  obtain ⟨b, hb, hgrant⟩ := (recorded r s).sendTest.finishJob_from
  rw [decided_of_recorded, hb, ← hlist]
  exact hgrant

theorem expiredCounters_eq (h : s.counters.expire ≤ 65535) : expiredCounters r s = { s.counters with
    expire := min 65535 (s.counters.expire +
      ((drainAndAge s.claimQueue s.map).filter fun e => decide (64 ≤ e.silence)).length) } := by
  have e := Stage.expireEntries_eq { s.writeResult r with
    follower := followerStep r.reason s.follower
    claimQueue := []
    map := drainAndAge s.claimQueue s.map } h
  exact congrArg State.counters e

theorem expiredCounters_park (r : ResultRecord) (s : State) : (expiredCounters r s).park = s.counters.park :=
  bumpTimes_expire_park _ _

theorem recordChanged_iff (last : Option ClaimRecord) (r : ClaimRecord) : recordChanged last r = true ↔
    ∀ l, last = some l → ¬ (l.live = r.live ∧ l.entries.map (fun e => (e.voice, e.note, e.doubled)) =
      r.entries.map fun e => (e.voice, e.note, e.doubled)) := by
  cases last with
  | none => simp [recordChanged]
  | some l =>
    simp only [recordChanged, Bool.or_eq_true, decide_eq_true_eq, Option.some.injEq, forall_eq', not_and_or]
    exact Iff.rfl

theorem sendDue_iff (s : State) : s.sendDue = true ↔
    (recordChanged s.alloc.lastSent s.alloc.record = true ∨ 16 ≤ s.alloc.sinceSend) ∧
      (if s.straps.rate = 0 then 2 else 8) ≤ s.alloc.sincePlacement := by
  rw [State.sendDue, Bool.and_eq_true, Bool.or_eq_true, decide_eq_true_iff, decide_eq_true_iff]
  exact Iff.rfl

/-- Settles O17: the tracker's part and the decision, each field from its own step. -/
theorem analysisCompletionLeadsToOneDecision : Obligations.AnalysisCompletionLeadsToOneDecision := by
  intro s a k r h hr ha hrun hsend _ hexpire
  refine ⟨decided r s, exec_decided h hr ha hrun, ?_, ?_, ?_, ?_, ?_⟩
  · have hframe := runSegment_frame hrun
    have hmap : ∀ l : List PeerEntry, l.filter (fun e => !e.expired) = l.filter fun e => decide (e.silence < 64) :=
      fun l => List.filter_congr fun e _ => Stage.not_expired_iff e
    have hall := decided_eq r s
    have hrecorded := recorded_eq r s
    rw [expiredCounters_eq hexpire, hmap, hframe] at hrecorded
    generalize decided r s = t at hall ⊢
    generalize recorded r s = u at hall hrecorded
    rw [hall, hrecorded]
  · rw [decided_eq, recorded_eq]
    rfl
  · rw [decided_eq, recorded_eq]
    rfl
  · rw [decided_eq, recorded_eq]
  · rw [decided_eq, recorded_eq]
    exact Arrival.satSucc_min hsend

/-- Settles O18: the sending test on the record that the decision builds. -/
theorem decisionPlacesTheRecordWhenDue : Obligations.DecisionPlacesTheRecordWhenDue := by
  intro s a k r h hr ha hrun hsend hplacement
  refine ⟨decided r s, exec_decided h hr ha hrun, ?_⟩
  intro changed due
  have hrecord : (decided r s).alloc.record = (recorded r s).alloc.record := by rw [decided_eq]
  have hplaced := Arrival.satSucc_min hplacement
  have hdue : (recorded r s).sendDue = true ↔ due := by
    have hlast : (recorded r s).alloc.lastSent = s.alloc.lastSent := by rw [recorded_eq]
    have hcount : (recorded r s).alloc.sinceSend = min 16 (s.alloc.sinceSend + 1) := by
      rw [recorded_eq]
      exact Arrival.satSucc_min hsend
    have hplacement' : (recorded r s).alloc.sincePlacement = min 8 (s.alloc.sincePlacement + 1) := by
      rw [recorded_eq]
      exact hplaced
    have hrate : (recorded r s).straps.rate = s.straps.rate := by rw [recorded_eq]
    have hsixteen : 16 ≤ min 16 (s.alloc.sinceSend + 1) ↔ 16 ≤ s.alloc.sinceSend + 1 := by omega
    rw [sendDue_iff, recordChanged_iff, hlast, hcount, hplacement', hrate, hsixteen, ← hrecord]
  obtain ⟨hline, hsince⟩ := decided_sends r s
  rw [hline, hsince, hrecord]
  refine ⟨fun hd => ?_, fun hd => ?_⟩
  · rw [if_pos (hdue.2 hd), if_pos (hdue.2 hd)]
    exact ⟨LineControl.placeClaim_placed _ _, rfl⟩
  · rw [if_neg (mt hdue.1 hd), if_neg (mt hdue.1 hd)]
    exact ⟨rfl, hplaced⟩

end

end Sys2Proof.DecisionEffects

/-! PROOF. A decision that allocates no voice (sections 4.4, 7.2 and 7.5), and the scene that waits for it. -/

namespace Sys2Proof.RestingDecision

open Sys2Proof.Machine Sys2Proof.Body Sys2Proof.Decision Sys2Proof.DecisionEffects

/-! ### "No target" after the scene's own part -/

section
variable {c d : Channel}

theorem noTarget_of_silent (h : c.state = .off ∨ c.state = .parked ∨ c.state = .leaving) : c.noTarget = c :=
  c.noTarget_posted.2 h

/-- A second "no target" changes nothing. -/
theorem noTarget_of_posted (h : c.NoTargetPosted d) : d.noTarget = d := by
  refine noTarget_of_silent ?_
  obtain ⟨hsounds, hsilent⟩ := h
  rcases hc : c.state with _ | _ | _ | _ | _ | _
  · exact .inl (hsilent (.inl hc) ▸ hc)
  · exact .inr (.inl (hsilent (.inr (.inl hc)) ▸ hc))
  · exact .inr (.inr (hsounds (.inl hc) ▸ rfl))
  · exact .inr (.inr (hsounds (.inr (.inl hc)) ▸ rfl))
  · exact .inr (.inr (hsounds (.inr (.inr hc)) ▸ rfl))
  · exact .inr (.inr (hsilent (.inr (.inr hc)) ▸ hc))

end

/-! ### The state in which the decision allocates -/

/-- The state in which a scene that waits for rest may take effect: the follower has stepped and the map is new. -/
def heard (r : ResultRecord) (s : State) : State :=
  ({ s.writeResult r with follower := followerStep r.reason s.follower } : State).updateMap

section
variable (r : ResultRecord) (s : State)

theorem heard_eq : heard r s = { s.writeResult r with
    follower := followerStep r.reason s.follower
    claimQueue := []
    map := (drainAndAge s.claimQueue s.map).filter fun e => !e.expired
    counters := (heard r s).counters } :=
  updateMap_eq _

theorem prepared_of_heard : prepared r.reason (s.writeResult r) = (heard r s).takeRestScene.countDecision := rfl

theorem heard_scenes : (heard r s).scenes = s.scenes := by rw [heard_eq]; rfl

theorem heard_follower : (heard r s).follower = followerStep r.reason s.follower := by rw [heard_eq]

theorem heard_idle : ¬ ∃ a, (heard r s).tracker = .analysing a := by
  rw [heard_eq]
  rintro ⟨a, ha⟩
  cases ha

end

theorem takeRestScene_of_waiting {s : State}
    (h : ∀ p, s.scenes.pending = some p → p.condition ≠ .atRest ∨ s.follower ≠ .rest) : s.takeRestScene = s := by
  unfold State.takeRestScene
  split
  · next p hp hrest =>
    split
    · next hc => exact absurd hrest ((h p hp).resolve_left fun hne => hne hc)
    · rfl
  · rfl

theorem takeRestScene_of_resting {s : State} {p : PendingScene} (hp : s.scenes.pending = some p)
    (hc : p.condition = .atRest) (hf : s.follower = .rest) : s.takeRestScene = s.sceneTakesEffect p.scene := by
  simp only [State.takeRestScene, hp, hc, hf]

/-! ### Scenes that wait -/

section
variable {s : State} {r : ResultRecord} {p : PendingScene}

theorem decided_scenes (r : ResultRecord) (s : State) : (decided r s).scenes = (heard r s).takeRestScene.scenes := by
  have hall := decided_eq r s
  have hscenes : (recorded r s).scenes = (prepared r.reason (s.writeResult r)).scenes := by rw [recorded_eq]
  generalize decided r s = t at hall ⊢
  generalize recorded r s = u at hall hscenes ⊢
  rw [hall]
  refine hscenes.trans ?_
  rw [prepared_of_heard]
  generalize (heard r s).takeRestScene = w
  rfl

theorem decided_scenes_waiting
    (h : ∀ p, s.scenes.pending = some p → p.condition ≠ .atRest ∨ followerStep r.reason s.follower ≠ .rest) :
    (decided r s).scenes = s.scenes := by
  rw [decided_scenes, takeRestScene_of_waiting, heard_scenes]
  rw [heard_scenes, heard_follower]
  exact h

theorem decided_scenes_resting (hp : s.scenes.pending = some p) (hc : p.condition = .atRest)
    (hf : followerStep r.reason s.follower = .rest) :
    (decided r s).scenes = { active := p.scene, pending := none, bypass := s.scenes.bypass } := by
  obtain ⟨heq, -, -, -⟩ := (heard r s).sceneTakesEffect_taken p.scene
  rw [decided_scenes, takeRestScene_of_resting (heard_scenes r s ▸ hp) hc (heard_follower r s ▸ hf), heq]
  simp only [heard_scenes]

theorem restSceneWaitsForRest : Clause.RestSceneWaitsForRest := by
  intro s a k r p h hr ha hrun hp
  refine ⟨decided r s, exec_decided h hr ha hrun, fun hc hf => decided_scenes_resting hp hc hf, fun hwaits => ?_⟩
  refine decided_scenes_waiting fun q hq => ?_
  rwa [← Option.some.inj (hp.symm.trans hq)]

/-! ### The voices -/

theorem heldWithLive_none {f : Follower} (h : f.heldNote = none) : f.heldWithLive = none := by
  cases f <;> simp_all [Follower.heldNote, Follower.heldWithLive]

/-- A rest scene that takes effect changes neither bypass nor the follower, so the decision still allocates nothing. -/
theorem allocationBase_prepared (h : s.scenes.bypass = true ∨ (followerStep r.reason s.follower).heldNote = none) :
    (prepared r.reason (s.writeResult r)).allocationBase = none := by
  have hfollower : (prepared r.reason (s.writeResult r)).follower = followerStep r.reason s.follower := by
    rw [prepared_eq (by rintro ⟨a, ha⟩; cases ha)]
    rfl
  have hbypass : (prepared r.reason (s.writeResult r)).scenes.bypass = s.scenes.bypass := by
    rw [prepared_of_heard, ← heard_scenes r s]
    show (heard r s).takeRestScene.scenes.bypass = _
    unfold State.takeRestScene
    split
    · split
      · rw [((heard r s).sceneTakesEffect_taken _).1]
      · rfl
    · rfl
  rw [State.allocationBase, hbypass, hfollower]
  rcases h with h | h
  · rw [if_pos h]
  · rw [heldWithLive_none h, ite_self]

/-- What a decision without an allocation posts: every voice is clear, every enabled channel has "no target". -/
theorem recorded_of_resting (h : s.scenes.bypass = true ∨ (followerStep r.reason s.follower).heldNote = none) :
    let t := (heard r s).takeRestScene
    (recorded r s).arbiter = t.arbiter ∧ (recorded r s).counters.park = s.counters.park ∧
      ∀ v, (recorded r s).voice v = clearedVoice ∧
        (recorded r s).channel v = if t.enabled v then (t.channel v).noTarget else t.channel v := by
  intro t
  have hpark : t.counters.park = s.counters.park := by
    show (heard r s).takeRestScene.counters.park = _
    rw [takeRestScene_eq (heard_idle r s)]
    exact expiredCounters_park r s
  have hposted := State.postAll_allocate_of_base_none (allocationBase_prepared h)
    (prepared r.reason (s.writeResult r)).alloc.voices
  have hrecorded : recorded r s = ((prepared r.reason (s.writeResult r)).allocate.postAll
      (prepared r.reason (s.writeResult r)).alloc.voices).recordDecision := rfl
  rw [hrecorded, hposted, prepared_of_heard]
  exact ⟨rfl, hpark, fun v => ⟨Quad.get_const _ v, Quad.get_ofFn _ v⟩⟩

theorem decided_voice (r : ResultRecord) (s : State) (v : Voice) : (decided r s).voice v = (recorded r s).voice v := by
  have hall := decided_eq r s
  generalize decided r s = t at hall ⊢
  generalize recorded r s = u at hall ⊢
  rw [hall]
  rfl

theorem decided_channel (r : ResultRecord) (s : State) (v : Voice) :
    (decided r s).channel v = (recorded r s).channel v := by
  have hall := decided_eq r s
  generalize decided r s = t at hall ⊢
  generalize recorded r s = u at hall ⊢
  rw [hall]
  rfl

theorem decided_park (r : ResultRecord) (s : State) : (decided r s).counters.park = (recorded r s).counters.park := by
  rw [decided_eq]

theorem restingDecisionRemovesEveryTarget : Clause.RestingDecisionRemovesEveryTarget := by
  intro s a k r h hr ha hrun hnone takesEffect
  obtain ⟨harbiter, hpark, hvoices⟩ := recorded_of_resting hnone
  have hheard : ∀ v, (heard r s).enabled v = s.enabled v ∧ (heard r s).channel v = s.channel v := fun v => by
    rw [heard_eq]
    exact ⟨rfl, rfl⟩
  have hrest := takeRestScene_eq (heard_idle r s)
  refine ⟨decided r s, exec_decided h hr ha hrun, (decided_park r s).trans hpark, ?_, fun v => ?_⟩
  · have hgrant := decided_grant r s
    rw [harbiter, hrest, heard_eq] at hgrant
    exact hgrant
  obtain ⟨hvoice, hchannel⟩ := hvoices v
  obtain ⟨henabled, hbefore⟩ := hheard v
  have henabled' : (heard r s).takeRestScene.enabled v = s.enabled v := by
    rw [hrest]
    exact henabled
  rw [henabled'] at hchannel
  rw [decided_voice, decided_channel, hvoice]
  refine ⟨rfl, fun he => ?_, fun he hno => ?_, fun p he hp => ?_⟩
  · rw [hchannel, he, if_neg Bool.false_ne_true, ← hbefore]
    unfold State.takeRestScene
    split
    · split
      · obtain ⟨-, -, -, hvs⟩ := (heard r s).sceneTakesEffect_taken _
        exact ((hvs v).1 (henabled.trans he)).2
      · rfl
    · rfl
  · rw [hchannel, he, if_pos rfl, takeRestScene_of_waiting, hbefore]
    · exact Channel.noTarget_posted _
    · intro p hp
      rw [heard_scenes] at hp
      rw [heard_follower]
      by_cases hc : p.condition = .atRest
      · exact .inr fun hf => hno p ⟨hp, hc, hf⟩
      · exact .inl hc
  · obtain ⟨hp, hc, hf⟩ := hp
    obtain ⟨-, -, -, hvs⟩ := (heard r s).sceneTakesEffect_taken p.scene
    obtain ⟨-, hoff, hon⟩ := hvs v
    rw [hchannel, he, if_pos rfl, takeRestScene_of_resting (heard_scenes r s ▸ hp) hc (heard_follower r s ▸ hf)]
    rw [henabled, hbefore] at hoff hon
    by_cases hmode : (p.scene.rules.get v).mode = .off
    · obtain ⟨-, hparked, hposted⟩ := hoff he hmode
      rw [if_pos hmode]
      by_cases hstate : (s.channel v).state = .parked
      · rw [hparked hstate, noTarget_of_silent (.inl rfl)]
        exact ⟨fun _ => rfl, fun _ hne => absurd hstate hne⟩
      · have hposted := hposted hstate
        rw [noTarget_of_posted hposted]
        refine ⟨fun h => ?_, fun _ _ => hposted⟩
        have hwas := h.resolve_right hstate
        rw [hposted.2 (.inl hwas), ← hwas]
    · obtain ⟨-, hunparks, hkeeps⟩ := hon he hmode
      rw [if_neg hmode]
      by_cases hstate : (s.channel v).state = .off
      · rw [hunparks hstate, noTarget_of_silent (.inr (.inl rfl))]
        exact ⟨fun _ => rfl, fun hne => absurd hstate hne⟩
      · rw [hkeeps hstate]
        refine ⟨fun h => ?_, fun _ _ => Channel.noTarget_posted _⟩
        have hwas := h.resolve_left hstate
        rw [noTarget_of_silent (.inr (.inl hwas)), ← hwas]

/-- Settles O19: both clauses from the state in which the decision allocates. -/
theorem restingDecisionsClearTheVoicesAndLetScenesIn : Obligations.RestingDecisionsClearTheVoicesAndLetScenesIn :=
  ⟨restingDecisionRemovesEveryTarget, restSceneWaitsForRest⟩

end

end Sys2Proof.RestingDecision

/-! PROOF. The choice of a source mark, what a posted target does to a channel, and the pair's merged FETCH (sections
8.2, 8.3 and 9.2). -/

namespace Sys2Proof.Postings

open Sys2Proof.Machine

/-! ### Positions in sixteenths -/

section
variable (p : Pos) (q d : Pos16)

theorem sixteenths_toNat : p.sixteenths.toNat = 16 * p.toNat := by
  rw [Pos.sixteenths, BitVec.toNat_append, BitVec.toNat_ofNat, Nat.shiftLeft_eq]
  simp
  omega

theorem sixteenths_eq_ofNat : p.sixteenths = BitVec.ofNat 28 (16 * p.toNat) := by
  rw [← sixteenths_toNat, BitVec.ofNat_toNat, BitVec.setWidth_eq]

theorem toInt_nonneg_iff : 0 ≤ d.toInt ↔ d.toNat < 2 ^ 27 := by
  rw [BitVec.toInt_eq_toNat_cond]
  split <;> omega

/-- A whole sample's position in sixteenths, shifted back. -/
theorem sixteenths_shiftRight : (p.sixteenths >>> 4).setWidth 24 = p := by
  apply BitVec.eq_of_toNat_eq
  rw [BitVec.toNat_setWidth, BitVec.toNat_ushiftRight, sixteenths_toNat, Nat.shiftRight_eq_div_pow]
  omega

theorem placementBefore_sixteenths (period : Nat) :
    placementBefore ((p + 128).sixteenths + BitVec.ofNat 28 period) period = p + 64 := by
  rw [placementBefore, BitVec.add_sub_cancel, sixteenths_shiftRight]
  show p + 128#24 - 64#24 = p + 64#24
  rw [BitVec.sub_eq_add_neg, BitVec.add_assoc]
  rfl

/-- The distance of two positions is the way from the one to the other (R35). -/
theorem natAbs_sub_eq_iff {k : Nat} (hk : k < 2 ^ 27) (a b : Pos16) :
    (a - b).toInt.natAbs = k ↔ a = b + BitVec.ofNat 28 k ∨ b = a + BitVec.ofNat 28 k := by
  have hforth : a = b + BitVec.ofNat 28 k ↔ (a.toNat = (b.toNat + k) % 2 ^ 28) := by
    rw [← BitVec.toNat_inj, BitVec.toNat_add, BitVec.toNat_ofNat, Nat.add_mod_mod]
  have hback : b = a + BitVec.ofNat 28 k ↔ (b.toNat = (a.toNat + k) % 2 ^ 28) := by
    rw [← BitVec.toNat_inj, BitVec.toNat_add, BitVec.toNat_ofNat, Nat.add_mod_mod]
  rw [hforth, hback, BitVec.toInt_eq_toNat_cond, BitVec.toNat_sub]
  have ha := a.isLt
  have hb := b.isLt
  split <;> omega

end

theorem eligibilityAndDistanceFollowTheRule : Clause.EligibilityAndDistanceFollowTheRule := by
  intro clock target m
  refine ⟨?_, fun k hk => natAbs_sub_eq_iff hk target m.pos⟩
  rw [eligible, decide_eq_true_iff, behind16, toInt_nonneg_iff, sixteenths_eq_ofNat]

/-! ### The choice of a source mark (R133) -/

section
variable {clock : Pos} {target : Pos16}

theorem chooseMark_append_of_ineligible {l : List Mark} {x : Mark} (h : eligible clock x = false) :
    chooseMark (l ++ [x]) clock target = chooseMark l clock target := by
  simp [chooseMark, List.filter_append, h]

theorem chooseMark_append_of_eligible {l : List Mark} {x : Mark} (h : eligible clock x = true) :
    chooseMark (l ++ [x]) clock target = match chooseMark l clock target with
      | none => some x
      | some b => if markDistance target x < markDistance target b then some x else some b := by
  rw [chooseMark, List.filter_append, List.filter_cons_of_pos h, List.foldl_append]
  rfl

/-- The mark m stands at this place of the list, ahead of the nearer and of the equally near ones (R133). -/
def ChosenFrom (clock : Pos) (target : Pos16) (marks : List Mark) (m : Mark) : Prop :=
  eligible clock m = true ∧ ∃ before after, marks = before ++ m :: after ∧
    (∀ x ∈ before, eligible clock x = true → markDistance target m < markDistance target x) ∧
    ∀ x ∈ after, eligible clock x = true → markDistance target m ≤ markDistance target x

theorem ChosenFrom.nearest {l : List Mark} {m y : Mark} (h : ChosenFrom clock target l m) (hy : y ∈ l)
    (he : eligible clock y = true) : markDistance target m ≤ markDistance target y := by
  obtain ⟨-, before, after, rfl, hbefore, hafter⟩ := h
  rcases List.mem_append.1 hy with hy | hy
  · exact (hbefore y hy he).le
  · rcases List.mem_cons.1 hy with rfl | hy
    · exact le_rfl
    · exact hafter y hy he

theorem chooseMark_spec (l : List Mark) :
    (chooseMark l clock target = none ↔ ∀ m ∈ l, eligible clock m = false) ∧
      ∀ m, chooseMark l clock target = some m → ChosenFrom clock target l m := by
  induction l using List.reverseRecOn with
  | nil => exact ⟨⟨fun _ => nofun, fun _ => rfl⟩, nofun⟩
  | append_singleton l x ih =>
    obtain ⟨hnone, hsome⟩ := ih
    cases he : eligible clock x with
    | false =>
      rw [chooseMark_append_of_ineligible he]
      refine ⟨hnone.trans ⟨fun h m hm => ?_, fun h m hm => h m (List.mem_append_left _ hm)⟩, fun m hm => ?_⟩
      · rcases List.mem_append.1 hm with hm | hm
        · exact h m hm
        · rwa [List.mem_singleton.1 hm]
      · obtain ⟨hme, before, after, rfl, hbefore, hafter⟩ := hsome m hm
        refine ⟨hme, before, after ++ [x], by simp, hbefore, fun y hy hye => ?_⟩
        rcases List.mem_append.1 hy with hy | hy
        · exact hafter y hy hye
        · rw [List.mem_singleton.1 hy, he] at hye
          cases hye
    | true =>
      have hall : ¬ ∀ m ∈ l ++ [x], eligible clock m = false := fun h => by
        have := h x (List.mem_append_right _ (List.mem_singleton_self x))
        rw [he] at this
        cases this
      have hlast : (∀ y ∈ l, eligible clock y = true → markDistance target x < markDistance target y) →
          ChosenFrom clock target (l ++ [x]) x := fun h => ⟨he, l, [], rfl, h, nofun⟩
      rw [chooseMark_append_of_eligible he]
      cases hc : chooseMark l clock target with
      | none =>
        refine ⟨⟨nofun, fun h => absurd h hall⟩, fun m hm => ?_⟩
        cases hm
        exact hlast fun y hy hye => absurd (hnone.1 hc y hy) (by rw [hye]; nofun)
      | some b =>
        have hb := hsome b hc
        dsimp only
        split
        · next hlt =>
          refine ⟨⟨nofun, fun h => absurd h hall⟩, fun m hm => ?_⟩
          cases hm
          exact hlast fun y hy hye => hlt.trans_le (hb.nearest hy hye)
        · next hge =>
          refine ⟨⟨nofun, fun h => absurd h hall⟩, fun m hm => ?_⟩
          cases hm
          obtain ⟨hbe, before, after, rfl, hbefore, hafter⟩ := hb
          refine ⟨hbe, before, after ++ [x], by simp, hbefore, fun y hy hye => ?_⟩
          rcases List.mem_append.1 hy with hy | hy
          · exact hafter y hy hye
          · rw [List.mem_singleton.1 hy]
            exact not_lt.1 hge

end

theorem sourceChoiceTakesTheNearestEligibleMark : Clause.SourceChoiceTakesTheNearestEligibleMark :=
  fun marks _ _ => chooseMark_spec marks

/-! ### Posted targets (R129, R132) -/

/-- The channel in which a cycle has started (R132). -/
def startedChannel (step : Option Nat) (clock : Pos) (ramp : Nat) (sums : Cells Int) (choice : Option Mark) : Channel :=
  { silentChannel .entering with
    stepInForce := step, cycleRunning := true, ramp := ramp, overlap := sums
    placementPoint := some (clock + 64)
    outputMark := some ((clock + 128).sixteenths + BitVec.ofNat 28 ((choice.map Mark.period).getD 2048))
    next := (choice.map NextReg.fetching).getD .empty }

/-- The FETCH of a cycle that starts or chooses anew, asked for where a mark is chosen (R132, R141). -/
def askChosen (v : Voice) (choice : Option Mark) (s : State) : State :=
  match choice with
  | none => s
  | some m => s.requestFetch v m

section
variable (v : Voice) (s : State)

theorem startCycle_eq (fromParked : Bool) {choice : Option Mark}
    (hchoice : chooseMark s.marks s.clock (s.clock - 640).sixteenths = choice) :
    s.startCycle v fromParked = askChosen v choice (s.setChannel v (startedChannel (s.voice v).postedStep s.clock
      (if fromParked then 0 else (s.channel v).ramp) (if fromParked then [] else (s.channel v).overlap) choice)) := by
  have hpoint := placementBefore_sixteenths s.clock
  replace hchoice : chooseMark s.marks s.clock (s.clock - 640#24).sixteenths = choice := hchoice
  simp only [State.startCycle, hchoice]
  cases choice with
  | none =>
    show s.setChannel v { s.channel v with
      state := .entering, stepInForce := _, rampStart := none, leaveRate := 1, ramp := _, outputMark := _
      placementPoint := some (placementBefore ((s.clock + 128).sixteenths + BitVec.ofNat 28 2048) 2048)
      current := none, next := _, overlap := _, cycleRunning := true } = _
    rw [hpoint]
    rfl
  | some m =>
    show State.requestFetch v m (s.setChannel v { s.channel v with
      state := .entering, stepInForce := _, rampStart := none, leaveRate := 1, ramp := _, outputMark := _
      placementPoint := some (placementBefore ((s.clock + 128).sixteenths + BitVec.ofNat 28 m.period) m.period)
      current := none, next := _, overlap := _, cycleRunning := true }) = _
    rw [hpoint]
    rfl

theorem postTarget_of_parked (b : Bool) (h : (s.channel v).state = .parked) :
    s.postTarget v b = s.startCycle v true := by
  simp only [State.postTarget, h]

theorem postTarget_of_stopped (b : Bool) (h : (s.channel v).state = .leaving) (hc : (s.channel v).cycleRunning = false) :
    s.postTarget v b = s.startCycle v false := by
  simp only [State.postTarget, h, hc]
  rfl

end

theorem targetMovesTheVoiceByItsTable : Clause.TargetMovesTheVoiceByItsTable := by
  intro v s gliding c
  refine ⟨fun h => ?_, fun h => ?_, fun h hc => ?_⟩
  · rcases h with h | h <;> simp only [State.postTarget, show (s.channel v).state = _ from h]
  · rcases h with h | h <;> simp only [State.postTarget, show (s.channel v).state = _ from h] <;> rfl
  · simp only [State.postTarget, show (s.channel v).state = _ from h]
    exact if_pos hc

theorem targetStartsOrRestartsTheCycle : Clause.TargetStartsOrRestartsTheCycle := by
  intro v s gliding ramp sums h choice started
  have hstart : s.postTarget v gliding =
      askChosen v choice (s.setChannel v (startedChannel (s.voice v).postedStep s.clock ramp sums choice)) := by
    rcases h with ⟨h, rfl, rfl⟩ | ⟨h, hc, rfl, rfl⟩
    · rw [postTarget_of_parked v s _ h]
      exact startCycle_eq v s true rfl
    · rw [postTarget_of_stopped v s _ h hc]
      exact startCycle_eq v s false rfl
  refine ⟨fun hnone => ?_, fun m hm => ?_⟩
  · rw [hstart, hnone]
    rfl
  · rw [hstart, hm]
    rfl

/-! ### FETCH requests of a pair (R136) -/

section
variable {v : Voice} {m : Mark} {s : State}

theorem mergesWith_iff (j : Job) : j.mergesWith v m = true ↔ ∃ m', j = .fetch v.partner none m' ∧ m'.pos = m.pos := by
  cases j with
  | fetch o p m' => cases p <;> simp [Job.mergesWith, and_assoc]
  | place | analysis => simp [Job.mergesWith]

theorem requestFetch_merges (h : s.arbiter.list.any (Job.mergesWith v m) = true) :
    s.requestFetch v m = { s with arbiter := { s.arbiter with
      list := s.arbiter.list.map fun j => if j.mergesWith v m then j.merged v else j } } := by
  rw [State.requestFetch, if_pos h]

theorem requestFetch_joins (h : s.arbiter.list.any (Job.mergesWith v m) = false) :
    s.requestFetch v m = s.request (.fetch v none m) := by
  rw [State.requestFetch, if_neg (by rw [h]; nofun)]

theorem lower_higher_pair (v : Voice) : (lowerVoice v).index + 1 = (higherVoice v).index ∧
    (v = lowerVoice v ∨ v = higherVoice v) := by
  cases v <;> decide

end

theorem pairFetchesMerge : Clause.PairFetchesMerge := by
  refine ⟨fun v m m' s before after hpos hlist hothers => ?_, fun v m s hnone => ?_⟩
  · have hself : (Job.fetch v.partner none m').mergesWith v m = true := (mergesWith_iff _).2 ⟨m', rfl, hpos⟩
    have hkeep : ∀ l : List Job, (∀ j ∈ l, j ∈ before ++ after) →
        l.map (fun j => if j.mergesWith v m then j.merged v else j) = l := fun l hl => by
      refine (List.map_congr_left fun j hj => ?_).trans (List.map_id l)
      refine if_neg fun hmerges => ?_
      obtain ⟨m'', rfl, -⟩ := (mergesWith_iff j).1 hmerges
      have := hothers _ (hl _ hj)
      simp [Job.isFetchFor] at this
    refine ⟨?_, lower_higher_pair v⟩
    rw [requestFetch_merges (by rw [hlist]; simp [hself]), hlist, List.map_append, List.map_cons,
      hkeep before fun j => List.mem_append_left _, hkeep after fun j => List.mem_append_right _, if_pos hself]
    rfl
  · rw [requestFetch_joins]
    · exact s.request_from _
    · rw [List.any_eq_false]
      intro j hj hmerges
      obtain ⟨m', rfl, hpos⟩ := (mergesWith_iff j).1 hmerges
      exact hnone m' hpos hj

/-- Settles O37: the choice by induction on the list from its end, the postings and the merge by their branches. -/
theorem postedTargetsMoveTheVoice : Obligations.PostedTargetsMoveTheVoice :=
  ⟨eligibilityAndDistanceFollowTheRule, sourceChoiceTakesTheNearestEligibleMark, targetStartsOrRestartsTheCycle,
    targetMovesTheVoiceByItsTable, pairFetchesMerge⟩

end Sys2Proof.Postings

/-! PROOF. A decision with a held note (sections 7.2 to 7.5 and 8.2): the passes, the postings of each voice, and the
jobs that the cycles that start ask for. -/

namespace Sys2Proof.AllocatingDecision

open Sys2Proof.Machine Sys2Proof.Body Sys2Proof.Decision Sys2Proof.DecisionEffects Sys2Proof.RestingDecision
open Sys2Proof.PassLaws Sys2Proof.Postings

/-! ### The jobs that a posting asks for -/

/-- Whether a target posted to this channel starts or restarts its cycle (R129). -/
def cycleStarts (c : Channel) : Bool :=
  decide (c.state = .parked) || (decide (c.state = .leaving) && !c.cycleRunning)

theorem cycleStarts_iff (c : Channel) :
    cycleStarts c = true ↔ c.state = .parked ∨ (c.state = .leaving ∧ c.cycleRunning = false) := by
  simp [cycleStarts]

/-- With the unit BUSY, voice v has asked for the FETCH of this mark, or for nothing: its own, or merged. -/
def Asked (v : Voice) (o : Option Mark) (s t : State) : Prop :=
  t.arbiter.running = s.arbiter.running ∧
  (∀ j, (∀ o q m, j ≠ .fetch o q m) → (j ∈ t.arbiter.list ↔ j ∈ s.arbiter.list)) ∧
  ∀ w m, (∃ j ∈ t.arbiter.list, j.fetches w m = true) ↔
    (∃ j ∈ s.arbiter.list, j.fetches w m = true) ∨ (w = v ∧ ∃ m', o = some m' ∧ m'.pos = m.pos)

section
variable {v w : Voice} {m m' : Mark} {s t : State}

theorem asked_none (h : t.arbiter = s.arbiter) : Asked v none s t := by
  unfold Asked
  rw [h]
  exact ⟨rfl, fun _ _ => Iff.rfl, fun w m => by simp⟩

theorem fetch_fetches_iff {o : Voice} {q : Option Voice} :
    (Job.fetch o q m).fetches w m' = true ↔ (o = w ∨ q = some w) ∧ m.pos = m'.pos := by
  simp [Job.fetches, Job.isFetchFor]

/-- A merged FETCH serves the voices that its part served, and the one that merged into it (R136). -/
theorem merged_fetches_iff {j : Job} (h : j.mergesWith v m = true) :
    (j.merged v).fetches w m' = true ↔ j.fetches w m' = true ∨ (w = v ∧ m.pos = m'.pos) := by
  obtain ⟨m'', rfl, hpos⟩ := (mergesWith_iff j).1 h
  have hpair : (lowerVoice v = w ∨ some (higherVoice v) = some w) ↔ (v.partner = w ∨ w = v) := by
    cases v <;> cases w <;> decide
  rw [Job.merged, fetch_fetches_iff, fetch_fetches_iff, hpair, hpos]
  simp only [reduceCtorEq, or_false, or_and_right]

theorem merged_isFetch {j : Job} (h : j.mergesWith v m = true) : ∃ o q k, j.merged v = .fetch o q k := by
  obtain ⟨m'', rfl, -⟩ := (mergesWith_iff j).1 h
  exact ⟨_, _, _, rfl⟩

theorem asked_requestFetch (hr : s.arbiter.running ≠ none) : Asked v (some m) s (s.requestFetch v m) := by
  have hchosen : ∀ (w : Voice) (m' : Mark), (w = v ∧ ∃ k, some m = some k ∧ k.pos = m'.pos) ↔ (w = v ∧ m.pos = m'.pos) := by simp
  unfold Asked
  simp only [hchosen]
  cases h : s.arbiter.list.any (Job.mergesWith v m) with
  | true =>
    obtain ⟨k, hk, hmerges⟩ := List.any_eq_true.1 h
    rw [requestFetch_merges h]
    refine ⟨rfl, fun j hj => ?_, fun w m' => ?_⟩
    · rw [List.mem_map]
      refine ⟨fun ⟨i, hi, hij⟩ => ?_, fun hmem => ⟨j, hmem, if_neg fun hm => ?_⟩⟩
      · split at hij
        · next hm =>
          obtain ⟨o, q, k, hfetch⟩ := merged_isFetch hm
          exact absurd (hij.symm.trans hfetch) (hj o q k)
        · exact hij ▸ hi
      · obtain ⟨m'', rfl, -⟩ := (mergesWith_iff j).1 hm
        exact hj _ _ _ rfl
    · simp only [List.mem_map, exists_exists_and_eq_and]
      constructor
      · rintro ⟨i, hi, hf⟩
        split at hf
        · next hm => exact ((merged_fetches_iff hm).1 hf).imp (fun hf => ⟨i, hi, hf⟩) id
        · exact .inl ⟨i, hi, hf⟩
      · rintro (⟨i, hi, hf⟩ | hself)
        · refine ⟨i, hi, ?_⟩
          split
          · next hm => exact (merged_fetches_iff hm).2 (.inl hf)
          · exact hf
        · exact ⟨k, hk, by rw [if_pos hmerges]; exact (merged_fetches_iff hmerges).2 (.inr hself)⟩
  | false =>
    obtain ⟨b, hb, -, hbusy⟩ := s.request_from (.fetch v none m)
    rw [requestFetch_joins h, hb, hbusy hr]
    refine ⟨rfl, fun j hj => ?_, fun w m' => ?_⟩
    · simp [hj]
    · simp only [List.mem_append, List.mem_singleton, or_and_right, exists_or, exists_eq_left, fetch_fetches_iff,
        reduceCtorEq, or_false]
      rw [eq_comm (a := v)]

theorem asked_askChosen {o : Option Mark} (hr : s.arbiter.running ≠ none) : Asked v o s (askChosen v o s) := by
  cases o with
  | none => exact asked_none rfl
  | some m => exact asked_requestFetch hr

theorem askChosen_channel (o : Option Mark) : (askChosen v o s).channel w = s.channel w := by
  cases o with
  | none => rfl
  | some m =>
    rw [askChosen, State.requestFetch]
    split <;> rfl

/-- The mark that a target posted to voice v asks for. -/
def startMark (s : State) (v : Voice) : Option Mark :=
  if cycleStarts (s.channel v) then chooseMark s.marks s.clock (s.clock - 640).sixteenths else none

/-- What a target posted to voice v leaves in its channel. -/
def postedChannel (s : State) (v : Voice) (b : Bool) : Channel :=
  let c := s.channel v
  match c.state with
  | .off | .entering => c
  | .sounding | .gliding => { c with state := if b then .gliding else .sounding }
  | .parked => startedChannel (s.voice v).postedStep s.clock 0 [] (startMark s v)
  | .leaving =>
    if c.cycleRunning then { c with state := .entering, leaveRate := 1, rampStart := some s.clock }
    else startedChannel (s.voice v).postedStep s.clock c.ramp c.overlap (startMark s v)

theorem startMark_of_starts (h : cycleStarts (s.channel v) = true) :
    chooseMark s.marks s.clock (s.clock - 640).sixteenths = startMark s v := by
  rw [startMark, if_pos h]

theorem postTarget_eq (s : State) (v : Voice) (b : Bool) :
    s.postTarget v b = askChosen v (startMark s v) (s.setChannel v (postedChannel s v b)) := by
  have hkeeps : cycleStarts (s.channel v) = false → startMark s v = none := fun h => by
    rw [startMark, h]
    rfl
  obtain ⟨hstays, hmoves, henters⟩ := targetMovesTheVoiceByItsTable v s b
  rcases hs : (s.channel v).state with _ | _ | _ | _ | _ | _
  · rw [hstays (.inl hs), hkeeps (by simp [cycleStarts, hs])]
    simp [postedChannel, hs, askChosen]
  · have hstarts : cycleStarts (s.channel v) = true := (cycleStarts_iff _).2 (.inl hs)
    rw [postTarget_of_parked v s b hs, startCycle_eq v s true (startMark_of_starts hstarts)]
    simp [postedChannel, hs]
  · rw [hstays (.inr hs), hkeeps (by simp [cycleStarts, hs])]
    simp [postedChannel, hs, askChosen]
  · rw [hmoves (.inl hs), hkeeps (by simp [cycleStarts, hs])]
    simp [postedChannel, hs, askChosen]
  · rw [hmoves (.inr hs), hkeeps (by simp [cycleStarts, hs])]
    simp [postedChannel, hs, askChosen]
  · cases hc : (s.channel v).cycleRunning with
    | true =>
      rw [henters hs hc, hkeeps (by simp [cycleStarts, hs, hc])]
      simp [postedChannel, hs, hc, askChosen]
    | false =>
      have hstarts : cycleStarts (s.channel v) = true := (cycleStarts_iff _).2 (.inr ⟨hs, hc⟩)
      rw [postTarget_of_stopped v s b hs hc, startCycle_eq v s false (startMark_of_starts hstarts)]
      simp [postedChannel, hs, hc]

theorem postTarget_channel (s : State) (v : Voice) (b : Bool) : (s.postTarget v b).channel v = postedChannel s v b := by
  rw [postTarget_eq, askChosen_channel, State.channel_setChannel_same]

theorem asked_postTarget (b : Bool) (hr : s.arbiter.running ≠ none) :
    Asked v (startMark s v) s (s.postTarget v b) := by
  rw [postTarget_eq]
  exact asked_askChosen (s := s.setChannel v (postedChannel s v b)) hr

end

/-! ### The posting of one voice -/

section
variable {v : Voice} {s : State} {h p : Nat}

/-- The allocation of a voice whose target n has been posted: its step, or the next step of its glide (R83 to R85). -/
def steppedVoice (s : State) (v : Voice) (h p : Nat) (before : Option Nat) (n : Nat) : VoiceAlloc :=
  let new := stepFor s.npt (s.rule v).intonation h p n
  let glide := glideFor (s.channel v) s.scenes.active.glide before n new (s.voice v).glide
  { s.voice v with
    postedStep := match glide with
      | some g => some (advanceGlide g new).1
      | none => some new
    glide := match glide with
      | some g => (advanceGlide g new).2
      | none => none }

theorem postVoiceTarget_eq (s : State) (v : Voice) (h p : Nat) (before : Option Nat) (n : Nat) :
    s.postVoiceTarget h p before v n =
      (s.setVoice v (steppedVoice s v h p before n)).postTarget v (steppedVoice s v h p before n).glide.isSome := by
  simp only [State.postVoiceTarget, steppedVoice]
  generalize glideFor (s.channel v) s.scenes.active.glide before n _ (s.voice v).glide = g
  cases g <;> rfl

theorem postVoiceTarget_voice (before : Option Nat) (n : Nat) :
    (s.postVoiceTarget h p before v n).voice v = steppedVoice s v h p before n := by
  rw [postVoiceTarget_eq, postTarget_voice, State.voice_setVoice_same]

theorem postedChannel_congr {t : State} {b : Bool} (hchannel : s.channel v = t.channel v)
    (hstep : (s.voice v).postedStep = (t.voice v).postedStep) (hclock : s.clock = t.clock) (hmarks : s.marks = t.marks) :
    postedChannel s v b = postedChannel t v b := by
  simp only [postedChannel, startMark, hchannel, hstep, hclock, hmarks]

/-- The mark that a decision's posting to voice v asks for. -/
def postedMark (s : State) (v : Voice) : Option Mark :=
  if s.enabled v && (s.voice v).target.isSome then startMark s v else none

theorem asked_postVoice (before : Quad VoiceAlloc) (hr : s.arbiter.running ≠ none) :
    Asked v (postedMark s v) s (s.postVoice (some (h, p)) before v) := by
  cases he : s.enabled v with
  | false =>
    rw [postVoice_of_disabled he, postedMark, he]
    exact asked_none rfl
  | true =>
    cases ht : (s.voice v).target with
    | none =>
      rw [postVoice_of_no_target he ht, postedMark, he, ht]
      exact asked_none rfl
    | some n =>
      have hmark : postedMark s v = startMark s v := by
        rw [postedMark, he, ht]
        rfl
      rw [postVoice_of_target he ht, postVoiceTarget_eq, hmark]
      exact asked_postTarget (s := s.setVoice v (steppedVoice s v h p (before.get v).target n)) _ hr

theorem Asked.busy {o : Option Mark} {t : State} (ha : Asked v o s t) (hr : s.arbiter.running ≠ none) :
    t.arbiter.running ≠ none := by
  rw [ha.1]
  exact hr

end

/-! ### The postings of the four voices -/

section
variable {base : State} {h p : Nat} {before : Quad VoiceAlloc}

theorem postedMark_congr {s : State} {v : Voice} (hon : OnVoices base s) (hvoice : s.voice v = base.voice v)
    (hchannel : s.channel v = base.channel v) : postedMark s v = postedMark base v := by
  have henabled : s.enabled v = base.enabled v := by rw [hon]; rfl
  have hmarks : s.marks = base.marks := by rw [hon]
  have hclock : s.clock = base.clock := by rw [hon]
  simp only [postedMark, startMark, hvoice, hchannel, henabled, hmarks, hclock]

/-- What the postings ask for, over the four voices. -/
theorem asked_postings (hr : base.arbiter.running ≠ none) :
    let t := base.forVoices (State.postVoice (some (h, p)) before)
    (∀ j, (∀ o q m, j ≠ .fetch o q m) → (j ∈ t.arbiter.list ↔ j ∈ base.arbiter.list)) ∧
      ∀ v m, (∃ j ∈ t.arbiter.list, j.fetches v m = true) ↔
        (∃ j ∈ base.arbiter.list, j.fetches v m = true) ∨ ∃ m', postedMark base v = some m' ∧ m'.pos = m.pos := by
  let s1 := base.postVoice (some (h, p)) before .v0
  let s2 := s1.postVoice (some (h, p)) before .v1
  let s3 := s2.postVoice (some (h, p)) before .v2
  have h0 : OnVoice .v0 base s1 := onVoice_postVoice base .v0 _ _
  have h1 : OnVoice .v1 s1 s2 := onVoice_postVoice s1 .v1 _ _
  have h2 : OnVoice .v2 s2 s3 := onVoice_postVoice s2 .v2 _ _
  have a0 : Asked .v0 (postedMark base .v0) base s1 := asked_postVoice before hr
  have a1 : Asked .v1 (postedMark s1 .v1) s1 s2 := asked_postVoice before (a0.busy hr)
  have a2 : Asked .v2 (postedMark s2 .v2) s2 s3 := asked_postVoice before (a1.busy (a0.busy hr))
  have a3 : Asked .v3 (postedMark s3 .v3) s3 (base.forVoices (State.postVoice (some (h, p)) before)) :=
    asked_postVoice before (a2.busy (a1.busy (a0.busy hr)))
  have m1 : postedMark s1 .v1 = postedMark base .v1 :=
    postedMark_congr h0.onVoices (h0.voice_ne (by decide)) (h0.channel_ne (by decide))
  have m2 : postedMark s2 .v2 = postedMark base .v2 :=
    postedMark_congr (h0.onVoices.trans h1.onVoices)
      ((h1.voice_ne (by decide)).trans (h0.voice_ne (by decide)))
      ((h1.channel_ne (by decide)).trans (h0.channel_ne (by decide)))
  have m3 : postedMark s3 .v3 = postedMark base .v3 :=
    postedMark_congr ((h0.onVoices.trans h1.onVoices).trans h2.onVoices)
      ((h2.voice_ne (by decide)).trans ((h1.voice_ne (by decide)).trans (h0.voice_ne (by decide))))
      ((h2.channel_ne (by decide)).trans ((h1.channel_ne (by decide)).trans (h0.channel_ne (by decide))))
  rw [m1] at a1
  rw [m2] at a2
  rw [m3] at a3
  obtain ⟨-, j0, f0⟩ := a0
  obtain ⟨-, j1, f1⟩ := a1
  obtain ⟨-, j2, f2⟩ := a2
  obtain ⟨-, j3, f3⟩ := a3
  refine ⟨fun j hj => (j3 j hj).trans ((j2 j hj).trans ((j1 j hj).trans (j0 j hj))), fun v m => ?_⟩
  rw [f3, f2, f1, f0]
  cases v <;> simp

end

/-! ### The decision -/

/-- The state after the passes: the voices that they leave, and PARK. -/
def allotted (r : ResultRecord) (s : State) (h : Nat) (c : Counters) : State :=
  { s.writeResult r with
    follower := followerStep r.reason s.follower
    claimQueue := []
    map := (drainAndAge s.claimQueue s.map).filter fun e => decide (e.silence < 64)
    alloc := { s.alloc with
      voices := (State.runPasses { s with
        map := (drainAndAge s.claimQueue s.map).filter fun e => decide (e.silence < 64) } h).voices
      sinceSend := satSucc Config.refreshDecisions s.alloc.sinceSend
      sincePlacement := satSucc Config.placementLimit s.alloc.sincePlacement }
    counters := c }

section
variable {s : State} {r : ResultRecord} {h p : Nat}

theorem heldWithLive_of {f : Follower} (hh : f.heldNote = some h) (hp : f.liveP = some p) :
    f.heldWithLive = some (h, p) := by
  cases f <;> simp_all [Follower.heldNote, Follower.liveP, Follower.heldWithLive]

theorem not_rest_of_held {f : Follower} (hh : f.heldNote = some h) : f ≠ .rest := by
  rintro rfl
  cases hh

theorem bumpTimes_park_counters (n : Nat) (s : State) (hpark : s.counters.park ≤ 65535) :
    (State.bumpTimes .park n s).counters.park = min 65535 (s.counters.park + n) := by
  induction n generalizing s with
  | zero => rw [State.bumpTimes, Nat.add_zero, min_eq_right hpark]
  | succ n ih =>
    have hnext : (s.bump .park).counters.park = min 65535 (s.counters.park + 1) := by
      rw [State.bump_counters, Counters.bump, satSucc_eq_min _ hpark]
    rw [State.bumpTimes, ih _ (by rw [hnext]; exact min_le_left _ _), hnext]
    omega

/-- The passes look at the straps, the scene, the map and the voices alone. -/
theorem runPasses_congr {t : State} (hstraps : t.straps = s.straps) (hscene : t.scenes.active = s.scenes.active)
    (hmap : t.map = s.map) (hvoices : t.alloc.voices = s.alloc.voices) : t.runPasses h = s.runPasses h := by
  have henabled : ∀ v, t.enabled v = s.enabled v := fun v => by
    rw [State.enabled, State.voiceCount, hstraps]
    rfl
  have hrule : ∀ v, t.rule v = s.rule v := fun v => by rw [State.rule, hscene]; rfl
  have hoff : ∀ v, t.ruleOff v = s.ruleOff v := fun v => by rw [State.ruleOff, hrule]; rfl
  have hcandidates : ∀ v, t.candidatesFor h v = s.candidatesFor h v := fun v => by
    rw [State.candidatesFor, hrule, hscene]
    rfl
  have hclashes : ∀ taken age n, t.noteClashes taken age n = s.noteClashes taken age n := fun taken age n => by
    rw [State.noteClashes, hstraps, hmap, hscene]
    rfl
  have hkeeps : ∀ taken v age n, t.keepsVoice h taken v age n = s.keepsVoice h taken v age n := fun taken v age n => by
    rw [State.keepsVoice, hoff, hcandidates, hclashes]
    rfl
  have hhold : ∀ v p, t.holdVoice h v p = s.holdVoice h v p := fun v p => by
    simp only [State.holdVoice, henabled, hkeeps]
  have hassign : ∀ v p, t.assignVoice h v p = s.assignVoice h v p := fun v p => by
    simp only [State.assignVoice, henabled, hoff, hrule, hcandidates, hclashes]
  simp only [State.runPasses, hhold, hassign, hvoices]

end

section
variable {s : State} {r : ResultRecord} {h p : Nat}

theorem heard_counters_park (r : ResultRecord) (s : State) : (heard r s).counters.park = s.counters.park :=
  expiredCounters_park r s

theorem heard_map (r : ResultRecord) (s : State) :
    (heard r s).map = (drainAndAge s.claimQueue s.map).filter fun e => decide (e.silence < 64) := by
  rw [heard_eq]
  exact List.filter_congr fun e _ => Stage.not_expired_iff e

theorem heard_filtered (r : ResultRecord) (s : State) : heard r s = { s.writeResult r with
    follower := followerStep r.reason s.follower
    claimQueue := []
    map := (drainAndAge s.claimQueue s.map).filter fun e => decide (e.silence < 64)
    counters := (heard r s).counters } := by
  rw [← heard_map]
  exact heard_eq r s |>.trans (by rw [heard_eq])

theorem prepared_of_held (hh : (followerStep r.reason s.follower).heldNote = some h) :
    prepared r.reason (s.writeResult r) = (heard r s).countDecision := by
  have hwaits : (heard r s).takeRestScene = heard r s :=
    takeRestScene_of_waiting fun q _ => .inr (by rw [heard_follower]; exact not_rest_of_held hh)
  rw [prepared_of_heard, hwaits]

/-- The state in which a decision with held note h posts (R113 to R116). -/
theorem allocate_of_held (hb : s.scenes.bypass = false) (hh : (followerStep r.reason s.follower).heldNote = some h)
    (hp : (followerStep r.reason s.follower).liveP = some p) (hpark : s.counters.park ≤ 65535) :
    let map := (drainAndAge s.claimQueue s.map).filter fun e => decide (e.silence < 64)
    ∃ c : Counters, c.park = min 65535 (s.counters.park + (State.runPasses { s with map := map } h).parks) ∧
      (heard r s).countDecision.allocate = allotted r s h c := by
  have hbase : (heard r s).countDecision.allocationBase = some (h, p) := by
    have hbypass : (heard r s).countDecision.scenes = s.scenes := heard_scenes r s
    have hfollower : (heard r s).countDecision.follower = _ := heard_follower r s
    rw [State.allocationBase, hbypass, hb, hfollower, heldWithLive_of hh hp]
    rfl
  intro map
  have hpasses : (heard r s).countDecision.runPasses h = State.runPasses { s with map := map } h := by
    refine runPasses_congr (s := { s with map := map }) ?_ ?_ (heard_map r s) ?_
    all_goals
      rw [heard_eq]
      rfl
  let passed : State := { (heard r s).countDecision with
    alloc := { (heard r s).countDecision.alloc with voices := (State.runPasses { s with map := map } h).voices } }
  have hpassed : ∀ c, { passed with counters := c } = allotted r s h c := fun c => by
    have hheard := heard_filtered r s
    show ({ (heard r s).countDecision with
      alloc := { (heard r s).countDecision.alloc with voices := (State.runPasses { s with map := map } h).voices }
      counters := c } : State) = _
    generalize heard r s = t at hheard ⊢
    rw [hheard]
    rfl
  refine ⟨(State.bumpTimes .park (State.runPasses { s with map := map } h).parks passed).counters, ?_, ?_⟩
  · rw [bumpTimes_park_counters _ passed ((heard_counters_park r s).trans_le hpark)]
    exact congrArg (fun n => min 65535 (n + _)) (heard_counters_park r s)
  · rw [State.allocate, hbase]
    show State.bumpTimes .park ((heard r s).countDecision.runPasses h).parks { (heard r s).countDecision with
      alloc := { (heard r s).countDecision.alloc with voices := ((heard r s).countDecision.runPasses h).voices } } = _
    rw [hpasses, ← hpassed]
    exact State.bumpTimes_eq _ _ _

end

section
variable {s : State} {r : ResultRecord} {h p : Nat}

theorem recorded_of_held {c : Counters} (hh : (followerStep r.reason s.follower).heldNote = some h)
    (hbase : (allotted r s h c).allocationBase = some (h, p))
    (ha : (heard r s).countDecision.allocate = allotted r s h c) :
    recorded r s = ((allotted r s h c).forVoices (State.postVoice (some (h, p)) s.alloc.voices)).recordDecision := by
  have hvoices : (heard r s).countDecision.alloc.voices = s.alloc.voices := by
    rw [heard_eq]
    rfl
  rw [recorded, posted, prepared_of_held hh, ha, State.postAll, hbase, hvoices]

theorem decided_recorded (r : ResultRecord) (s : State) : (decided r s).counters = (recorded r s).counters ∧
    (decided r s).scenes = (recorded r s).scenes ∧ (decided r s).alloc.voices = (recorded r s).alloc.voices ∧
    (decided r s).channels = (recorded r s).channels := by
  have hall := decided_eq r s
  generalize decided r s = t at hall ⊢
  generalize recorded r s = u at hall ⊢
  rw [hall]
  exact ⟨rfl, rfl, rfl, rfl⟩

/-- A decision with a held note, by the state in which it posts. -/
theorem decided_of_held (hb : s.scenes.bypass = false) (hh : (followerStep r.reason s.follower).heldNote = some h)
    (hp : (followerStep r.reason s.follower).liveP = some p) (hpark : s.counters.park ≤ 65535) :
    let map := (drainAndAge s.claimQueue s.map).filter fun e => decide (e.silence < 64)
    ∃ c base, base = allotted r s h c ∧
      c.park = min 65535 (s.counters.park + (State.runPasses { s with map := map } h).parks) ∧
      ∃ t, t = base.forVoices (State.postVoice (some (h, p)) s.alloc.voices) ∧
        (decided r s).counters = t.counters ∧ (decided r s).scenes = t.scenes ∧
        (decided r s).alloc.voices = t.alloc.voices ∧ (decided r s).channels = t.channels ∧
        (decided r s).arbiter.GrantedFrom t.arbiter.list := by
  intro map
  obtain ⟨c, hc, hallot⟩ := allocate_of_held hb hh hp hpark
  have hbase : (allotted r s h c).allocationBase = some (h, p) := by
    show (if s.scenes.bypass then none else (followerStep r.reason s.follower).heldWithLive) = _
    rw [hb, heldWithLive_of hh hp]
    rfl
  have hrecorded := recorded_of_held hh hbase hallot
  obtain ⟨hcounters, hscenes, hvoices, hchannels⟩ := decided_recorded r s
  have hgrant := decided_grant r s
  rw [hrecorded] at hcounters hscenes hvoices hchannels hgrant
  generalize decided r s = d at hcounters hscenes hvoices hchannels hgrant ⊢
  refine ⟨c, allotted r s h c, rfl, hc, ?_⟩
  generalize State.forVoices _ (allotted r s h c) = t at hcounters hscenes hvoices hchannels hgrant ⊢
  exact ⟨t, rfl, hcounters, hscenes, hvoices, hchannels, hgrant⟩

/-- What the posting leaves to a voice (R117). -/
theorem postVoice_spec (u : State) (v : Voice) (before : Quad VoiceAlloc) :
    (u.enabled v = false → (u.postVoice (some (h, p)) before v).voice v = u.voice v ∧
      (u.postVoice (some (h, p)) before v).channel v = u.channel v) ∧
    (u.enabled v = true → (u.voice v).target = none →
      (u.postVoice (some (h, p)) before v).voice v = { u.voice v with postedStep := none, glide := none } ∧
      (u.channel v).NoTargetPosted ((u.postVoice (some (h, p)) before v).channel v)) ∧
    ∀ n, u.enabled v = true → (u.voice v).target = some n →
      (u.postVoice (some (h, p)) before v).voice v = steppedVoice u v h p (before.get v).target n ∧
      (u.postVoice (some (h, p)) before v).channel v =
        postedChannel (u.setVoice v (steppedVoice u v h p (before.get v).target n)) v
          (steppedVoice u v h p (before.get v).target n).glide.isSome := by
  refine ⟨fun he => ?_, fun he ht => ?_, fun n he ht => ?_⟩
  · rw [postVoice_of_disabled he]
    exact ⟨rfl, rfl⟩
  · rw [postVoice_of_no_target he ht, postVoiceNone_voice, postVoiceNone_channel]
    exact ⟨rfl, Channel.noTarget_posted _⟩
  · rw [postVoice_of_target he ht, postVoiceTarget_voice, postVoiceTarget_eq, postTarget_channel]
    exact ⟨rfl, rfl⟩

theorem steppedVoice_congr {u w : State} {v : Voice} {before : Option Nat} {n : Nat} (hnpt : u.npt = w.npt)
    (hscenes : u.scenes = w.scenes) (hvoice : u.voice v = w.voice v) (hchannel : u.channel v = w.channel v) :
    steppedVoice u v h p before n = steppedVoice w v h p before n := by
  simp only [steppedVoice, State.rule, hnpt, hscenes, hvoice, hchannel]

/-- Settles O20: each voice's posting is made on the state after the passes, as far as that voice is concerned. -/
theorem decisionAllocatesForTheHeldNote : Obligations.DecisionAllocatesForTheHeldNote := by
  intro s a k r h p hready hr ha hrun hb hh hp hpark map marks passes posted glide starts
  obtain ⟨c, base, hbase, hc, t, ht, hcounters, hscenes, hvoices, hchannels, hgrant⟩ := decided_of_held hb hh hp hpark
  have hframe : r.frame = a.tick := runSegment_frame hrun
  have hbusy : base.arbiter.running ≠ none := by
    rw [hbase]
    show s.arbiter.running ≠ none
    rw [hr]
    nofun
  have henabled : ∀ v, base.enabled v = s.enabled v := fun v => by rw [hbase]; rfl
  have hvoiceBase : ∀ v, base.voice v = passes.voices.get v := fun v => by rw [hbase]; rfl
  have hchannelBase : ∀ v, base.channel v = s.channel v := fun v => by rw [hbase]; rfl
  have hmarksBase : base.marks = marks := by
    rw [hbase]
    show appendMarks s.clock r.frame s.coverEnd s.coverFar s.marks r.reason = _
    rw [hframe]
  have hclockBase : base.clock = s.clock := by rw [hbase]; rfl
  have honvoice : ∀ (v : Voice) (u : State), OnVoice v u (u.postVoice (some (h, p)) s.alloc.voices v) :=
    fun v u => onVoice_postVoice u v _ _
  have hon : OnVoices base t := ht ▸ onVoices_forVoices honvoice base
  have hvoice : ∀ v, (decided r s).voice v = t.voice v := fun v => congrArg (fun vs => vs.get v) hvoices
  have hchannel : ∀ v, (decided r s).channel v = t.channel v := fun v => congrArg (fun cs => cs.get v) hchannels
  refine ⟨decided r s, t.arbiter.list, exec_decided hready hr ha hrun, ?_, ?_, fun v => ?_, hgrant, ?_⟩
  · rw [hscenes, hon, hbase]
    rfl
  · rw [hcounters, hon, hbase]
    exact hc
  · rw [hvoice, hchannel, hvoices]
    obtain ⟨u, hu, huvoice, huchannel, htvoice, htchannel⟩ := forVoices_at honvoice base v
    rw [← ht] at htvoice htchannel
    have huenabled : u.enabled v = s.enabled v := by
      rw [hu]
      exact henabled v
    have hunpt : u.npt = base.npt := by rw [hu]
    have huscenes : u.scenes = base.scenes := by rw [hu]
    have huclock : u.clock = s.clock := by
      rw [hu]
      exact hclockBase
    have humarks : u.marks = marks := by
      rw [hu]
      exact hmarksBase
    obtain ⟨hdisabled, hnone, htarget⟩ := postVoice_spec (h := h) (p := p) u v s.alloc.voices
    rw [← htvoice, ← htchannel, huenabled, huvoice, hvoiceBase] at hdisabled hnone htarget
    rw [huchannel, hchannelBase] at hdisabled hnone
    refine ⟨fun he => ?_, hnone, fun n he hn => ?_⟩
    · obtain ⟨hv, hc⟩ := hdisabled he
      exact ⟨hv.trans (runPasses_disabled (s := { s with map := map }) he), hc⟩
    · obtain ⟨hv, hc⟩ := htarget n he hn
      have hstepped : steppedVoice u v h p (s.alloc.voices.get v).target n =
          steppedVoice base v h p (s.voice v).target n :=
        steppedVoice_congr hunpt huscenes huvoice huchannel
      rw [hstepped] at hv hc
      refine ⟨?_, ?_⟩
      · rw [hv, hbase]
        rfl
      · rw [hc, hv, postTarget_channel]
        refine postedChannel_congr (huchannel.trans (hchannelBase v)) ?_ huclock humarks
        rw [State.voice_setVoice_same]
        exact congrArg VoiceAlloc.postedStep hv.symm
  · obtain ⟨hothers, hfetches⟩ := asked_postings (base := base) (h := h) (p := p) (before := s.alloc.voices) hbusy
    rw [← ht] at hothers hfetches
    have hlist : base.arbiter.list = s.arbiter.list := by rw [hbase]; rfl
    rw [hlist] at hothers hfetches
    refine ⟨hothers, fun v m => (hfetches v m).trans (or_congr_right (exists_congr fun m' => and_congr_left' ?_))⟩
    have hstarts : starts v m' ↔ s.enabled v = true ∧ (passes.voices.get v).target.isSome = true ∧
        cycleStarts (s.channel v) = true ∧ chooseMark marks s.clock (s.clock - 640).sixteenths = some m' := by
      rw [cycleStarts_iff]
    rw [hstarts, postedMark, startMark, henabled, hvoiceBase, hchannelBase, hmarksBase, hclockBase]
    split_ifs <;> simp_all

end

end Sys2Proof.AllocatingDecision

/-! PROOF. Glides, SCENE payloads, and what an accepted SCENE or CONTROL does (sections 4.2 to 4.5, 5.5 and 11.3). -/

namespace Sys2Proof.ScenesAndControls

open Sys2Proof.Machine Sys2Proof.TrackerEvents

/-! ### Glides (R84, R85, R86) -/

section
variable {c : Channel} {length t new : Nat} {before : Option Nat} {g : Option Glide}

theorem glideFor_of_silent (hs : c.state ≠ .sounding) (hg : c.state ≠ .gliding) :
    glideFor c length before t new g = none := by
  rw [glideFor, if_neg (by tauto)]

/-- The share of the way that a glide has gone keeps its step above zero, so the natural number is the formula's value. -/
theorem advanceGlide_step (g : Glide) (new : Nat) (h : g.position < g.length) : ((advanceGlide g new).1 : Int) =
    g.origin + roundHalfUp (((new : Int) - g.origin) * ((g.position : Int) + 1)) g.length := by
  have hfar : -(g.origin : Int) * g.length ≤ ((new : Int) - g.origin) * ((g.position : Int) + 1) := by
    have hnew : 0 ≤ (new : Int) * ((g.position : Int) + 1) := by positivity
    have horigin : (g.origin : Int) * ((g.position : Int) + 1) ≤ g.origin * g.length :=
      mul_le_mul_of_nonneg_left (by omega) (by omega)
    linarith [sub_mul (new : Int) g.origin ((g.position : Int) + 1)]
  have hnear : ((new : Int) - g.origin) * ((g.position : Int) + 1) ≤ (new : Int) * g.length := by
    have hnew : (new : Int) * ((g.position : Int) + 1) ≤ new * g.length :=
      mul_le_mul_of_nonneg_left (by omega) (by omega)
    have horigin : 0 ≤ (g.origin : Int) * ((g.position : Int) + 1) := by positivity
    linarith [sub_mul (new : Int) g.origin ((g.position : Int) + 1)]
  obtain ⟨hlow, -⟩ := PeriodTable.roundHalfUp_mem (by omega) hfar hnear
  simp only [advanceGlide, glideStep, Nat.cast_add, Nat.cast_one]
  omega

theorem advanceGlide_last (g : Glide) (new : Nat) (h : g.position + 1 = g.length) : (advanceGlide g new).1 = new := by
  have hstep := advanceGlide_step g new (by omega)
  have hwhole : ((g.position : Int) + 1) = (g.length : Int) := by exact_mod_cast h
  rw [hwhole] at hstep
  obtain ⟨hlow, hhigh⟩ := PeriodTable.roundHalfUp_mem (n := ((new : Int) - g.origin) * g.length) (d := g.length)
    (by omega) le_rfl le_rfl
  omega

/-- Settles O23: the branches of a posting's glide, and its step as an exact share of the way. -/
theorem glidesRunFromTheStepInForce : Obligations.GlidesRunFromTheStepInForce := by
  refine ⟨fun c length t new k before g hstate hk => ⟨fun hnew hlength => ?_, fun hnew hlength => ?_, fun hsame => ?_⟩,
    fun c length t new before g hs hg => glideFor_of_silent hs hg, fun g new h => ⟨advanceGlide_step g new h, ?_, ?_⟩⟩
  · rw [glideFor, if_pos hstate, if_neg hnew, if_pos hlength, hk]
    rfl
  · rw [glideFor, if_pos hstate, if_neg hnew, if_neg (by omega)]
  · rw [glideFor, if_pos hstate, if_pos hsame]
  · exact fun hmore => if_pos hmore
  · exact fun hlast => ⟨if_neg (by omega), advanceGlide_last g new hlast⟩

end

/-! ### SCENE payloads (R60, R179) -/

/-- The characters of a rule. -/
def ruleChars (r : RawRule) : List Byte :=
  [r.mode, r.primary, r.level, r.pan, r.flags, BitVec.ofNat 8 r.alternates.length] ++ r.alternates

section
variable {r : RawRule} {payload rest : List Byte}

theorem parseRule_chars (h : r.alternates.length ≤ 3) : parseRule (ruleChars r ++ rest) = some (r, rest) := by
  have hcount : (BitVec.ofNat 8 r.alternates.length).toNat = r.alternates.length := by
    rw [BitVec.toNat_ofNat]
    omega
  simp only [ruleChars, parseRule, List.cons_append, List.nil_append, hcount, List.length_append, List.take_left,
    List.drop_left]
  rw [if_neg (by omega), if_neg (by omega)]

theorem chars_of_parseRule (h : parseRule payload = some (r, rest)) :
    payload = ruleChars r ++ rest ∧ r.alternates.length ≤ 3 := by
  unfold parseRule at h
  split at h
  · next mode primary level pan flags k tail =>
    split at h
    · cases h
    · next hk =>
      split at h
      · cases h
      · next hlen =>
        cases h
        have hcount : (tail.take k.toNat).length = k.toNat := List.length_take_of_le (by omega)
        simp only [ruleChars, hcount, BitVec.ofNat_toNat, BitVec.setWidth_eq, List.cons_append, List.nil_append,
          List.take_append_drop]
        exact ⟨trivial, by omega⟩
  · cases h

theorem parseRules_chars {rules : Quad RawRule} (h : ∀ v : Voice, (rules.get v).alternates.length ≤ 3) :
    parseRules (rules.toList.flatMap ruleChars) = some rules := by
  have h0 := parseRule_chars (r := rules.q0) (h .v0)
    (rest := ruleChars rules.q1 ++ (ruleChars rules.q2 ++ (ruleChars rules.q3 ++ [])))
  have h1 := parseRule_chars (r := rules.q1) (h .v1) (rest := ruleChars rules.q2 ++ (ruleChars rules.q3 ++ []))
  have h2 := parseRule_chars (r := rules.q2) (h .v2) (rest := ruleChars rules.q3 ++ [])
  have h3 := parseRule_chars (r := rules.q3) (h .v3) (rest := [])
  have hall : rules.toList.flatMap ruleChars =
      ruleChars rules.q0 ++ (ruleChars rules.q1 ++ (ruleChars rules.q2 ++ (ruleChars rules.q3 ++ []))) := rfl
  simp only [hall, parseRules, h0, h1, h2, h3]

theorem chars_of_parseRules {rules : Quad RawRule} (h : parseRules payload = some rules) :
    payload = rules.toList.flatMap ruleChars ∧ ∀ v : Voice, (rules.get v).alternates.length ≤ 3 := by
  unfold parseRules at h
  split at h
  · cases h
  · next r0 p1 h0 =>
    split at h
    · cases h
    · next r1 p2 h1 =>
      split at h
      · cases h
      · next r2 p3 h2 =>
        split at h
        · next r3 h3 =>
          cases h
          obtain ⟨e0, l0⟩ := chars_of_parseRule h0
          obtain ⟨e1, l1⟩ := chars_of_parseRule h1
          obtain ⟨e2, l2⟩ := chars_of_parseRule h2
          obtain ⟨e3, l3⟩ := chars_of_parseRule h3
          refine ⟨?_, fun v => ?_⟩
          · rw [e0, e1, e2, e3]
            rfl
          · cases v
            · exact l0
            · exact l1
            · exact l2
            · exact l3
        · cases h

end

theorem delay_of_bytes (d : BitVec 24) : d.extractLsb' 16 8 ++ d.extractLsb' 8 8 ++ d.extractLsb' 0 8 = d := by
  refine BitVec.eq_of_getLsbD_eq fun i hi => ?_
  simp only [BitVec.getLsbD_append, BitVec.getLsbD_extractLsb']
  split
  · next h => simp [h]
  · split
    · next h h' =>
      have hplace : 8 + (i - 8) = i := by omega
      simp [h', hplace]
    · next h h' =>
      have hplace : 16 + (i - 8 - 8) = i := by omega
      have hlast : i - 8 - 8 < 8 := by omega
      simp [hplace, hlast]

theorem everyScenePayloadIsParsed : Clause.EveryScenePayloadIsParsed := by
  intro mask m h
  have hrules := parseRules_chars h
  show (parseRules (m.rules.toList.flatMap ruleChars)).map _ = some m
  rw [hrules, Option.map_some, delay_of_bytes]

theorem sceneWalkTakesTheWholePayload : Clause.SceneWalkTakesTheWholePayload := by
  intro payload m h
  unfold parseScene at h
  split at h
  · next mask number root scale threshold gate options glide sw d2 d1 d0 rest =>
    obtain ⟨rules, hrules, rfl⟩ := Option.map_eq_some_iff.1 h
    obtain ⟨hchars, hlengths⟩ := chars_of_parseRules hrules
    have hcount : rest.length = 24 + (rules.q0.alternates.length + rules.q1.alternates.length +
        rules.q2.alternates.length + rules.q3.alternates.length) := by
      rw [hchars]
      simp only [Quad.toList, List.flatMap_cons, List.flatMap_nil, ruleChars, List.length_append, List.length_cons,
        List.length_nil]
      omega
    have h0 := hlengths .v0
    have h1 := hlengths .v1
    have h2 := hlengths .v2
    have h3 := hlengths .v3
    simp only [Quad.get] at h0 h1 h2 h3
    refine ⟨hlengths, ?_, ?_, mask, d2, d1, d0, rfl, ?_⟩
    · simp only [List.length_cons]
      omega
    · simp only [List.length_cons]
      omega
    · rw [hchars]
      rfl
  · cases h

/-! ### Clamping (R61, R62) -/

theorem clampInt_eq {lo hi : Int} (h : lo ≤ hi) (x : Int) : clampInt lo hi x = max lo (min hi x) := by
  unfold clampInt
  split_ifs <;> omega

theorem intervalLimit_eq (mode : RuleMode) : intervalLimit mode = if mode = .diatonic then 14 else 24 := by
  cases mode <;> rfl

theorem keptInterval_eq (mode : RuleMode) (b : Byte) :
    keptInterval mode b = max (-(if mode = .diatonic then (14 : Int) else 24))
      (min (if mode = .diatonic then (14 : Int) else 24) b.toInt) := by
  rw [keptInterval, intervalLimit_eq, clampInt_eq (by split <;> omega)]

theorem byte_eq_iff (b : Byte) {n : Nat} (hn : n < 256) : b = BitVec.ofNat 8 n ↔ b.toNat = n := by
  rw [← BitVec.toNat_inj, BitVec.toNat_ofNat, Nat.mod_eq_of_lt hn]

theorem keptRules_get (m : SceneMsg) (v : Voice) : (keptScene m).rules.get v = keptRule (m.rules.get v) := by
  cases v <;> rfl

theorem ruleClamped_iff (r : RawRule) : ruleClamped r = false ↔
    r.mode.toNat ≤ 2 ∧ r.level.toNat ≤ 127 ∧ (keptRule r).pan = r.pan.toInt ∧ (keptRule r).primary = r.primary.toInt ∧
      (keptRule r).alternates = r.alternates.map BitVec.toInt := by
  have halternates : (keptRule r).alternates = r.alternates.map BitVec.toInt ↔
      ∀ b ∈ r.alternates, keptInterval (keptMode r.mode) b = b.toInt := List.map_inj_left
  rw [halternates]
  simp [ruleClamped, keptRule, and_assoc]

theorem quad_any_false_iff {α : Type} (q : Quad α) (p : α → Bool) :
    q.toList.any p = false ↔ ∀ v : Voice, p (q.get v) = false := by
  refine ⟨fun h v => ?_, fun h => ?_⟩
  · simp only [Quad.toList, List.any_cons, List.any_nil, Bool.or_eq_false_iff] at h
    obtain ⟨h0, h1, h2, h3, -⟩ := h
    cases v
    · exact h0
    · exact h1
    · exact h2
    · exact h3
  · have h0 := h .v0
    have h1 := h .v1
    have h2 := h .v2
    have h3 := h .v3
    simp only [Quad.get] at h0 h1 h2 h3
    simp [Quad.toList, h0, h1, h2, h3]

theorem sceneClamped_iff (m : SceneMsg) : sceneClamped m = false ↔
    m.number.toNat ≤ 127 ∧ m.root.toNat ≤ 11 ∧ m.scale.toNat ≤ 5 ∧ m.glide.toNat ≤ 15 ∧ m.switchMode.toNat ≤ 2 ∧
      ∀ v : Voice, ruleClamped (m.rules.get v) = false := by
  simp only [sceneClamped, Bool.or_eq_false_iff, quad_any_false_iff, decide_eq_false_iff_not, not_lt, and_assoc]

theorem clampingBringsFieldsIntoRange : Clause.ClampingBringsFieldsIntoRange := by
  intro m k
  refine ⟨rfl, rfl, rfl, rfl, rfl, rfl, rfl, ?_, fun v => ?_, ?_⟩
  · simp only [keptSwitch, byte_eq_iff _ (show 1 < 256 by decide), byte_eq_iff _ (show 2 < 256 by decide)]
  · show let kr := (keptScene m).rules.get v; _
    rw [keptRules_get]
    refine ⟨?_, keptInterval_eq _ _, List.map_congr_left fun b _ => keptInterval_eq _ b, rfl, clampInt_eq (by decide) _,
      rfl, rfl⟩
    simp only [keptRule, keptMode, byte_eq_iff _ (show 1 < 256 by decide), byte_eq_iff _ (show 2 < 256 by decide)]
  · rw [sceneClamped_iff]
    have hrules : ∀ v, k.rules.get v = keptRule (m.rules.get v) := keptRules_get m
    simp only [ruleClamped_iff, hrules]

/-- Settles O27: the walk back and forth over the four rules, and each clamp as a maximum of a minimum. -/
theorem scenePayloadsAreParsedThenClamped : Obligations.ScenePayloadsAreParsedThenClamped :=
  ⟨sceneWalkTakesTheWholePayload, everyScenePayloadIsParsed, clampingBringsFieldsIntoRange⟩

/-! ### Acceptances (R63 to R69) -/

section
variable {s : State}

/-- A command that brings an acceptance, with nothing owed. -/
theorem takeAccepted_of_ready (h : s.ready) (a : Accepted) :
    whenReleased (fun s => s.takeAccepted a) s = .next (s.acceptFrame a) := by
  obtain ⟨hreset, howed⟩ := h
  simp [whenReleased, hreset, State.takeAccepted, howed, State.settle_of_nil howed]

theorem bump_badFrame (h : s.counters.badFrame ≤ 65535) :
    s.bump .badFrame = { s with counters := { s.counters with badFrame := min 65535 (s.counters.badFrame + 1) } } := by
  rw [State.bump, Counters.bump, satSucc_eq_min _ h]

theorem bump_clamp (h : s.counters.clamp ≤ 65535) :
    s.bump .clamp = { s with counters := { s.counters with clamp := min 65535 (s.counters.clamp + 1) } } := by
  rw [State.bump, Counters.bump, satSucc_eq_min _ h]

theorem sceneIsSwitchedInByItsMode : Clause.SceneIsSwitchedInByItsMode := by
  intro capture m s h hclamp hbad
  refine ⟨fun hw => ?_, fun hw => ?_⟩
  · rw [← bump_badFrame hbad]
    refine (takeAccepted_of_ready h (.scene capture m)).trans (congrArg Host.Outcome.next ?_)
    rw [State.acceptFrame, State.acceptScene, hw]
    rfl
  · obtain ⟨s1, hs1⟩ : ∃ s1 : State, s1 = { s with counters := { s.counters with
        clamp := if sceneClamped m = true then min 65535 (s.counters.clamp + 1) else s.counters.clamp } } := ⟨_, rfl⟩
    have hcounted : (if sceneClamped m then s.bump .clamp else s) = s1 := by
      rw [hs1]
      split
      · exact bump_clamp hclamp
      · rfl
    have haccept : exec (.scene capture m) s = .next (s1.switchScene capture m) := by
      refine (takeAccepted_of_ready h (.scene capture m)).trans (congrArg Host.Outcome.next ?_)
      rw [State.acceptFrame, State.acceptScene, if_pos hw, hcounted]
    have hscenes : s1.scenes = s.scenes := by rw [hs1]
    have hclock : s1.clock = s.clock := by rw [hs1]
    have hone := byte_eq_iff m.switchMode (show 1 < 256 by decide)
    have htwo := byte_eq_iff m.switchMode (show 2 < 256 by decide)
    refine ⟨s1, _, haccept, hs1, fun h1 h2 => ?_, fun h1 => ?_, fun h2 hpast => ?_, fun h2 hahead => ?_⟩
    · have hmode : keptSwitch m.switchMode = .atOnce := by
        rw [keptSwitch, if_neg (mt hone.1 h1), if_neg (mt htwo.1 h2)]
      rw [State.switchScene, hmode]
      exact s1.sceneTakesEffect_taken _
    · have hmode : keptSwitch m.switchMode = .atRest := by rw [keptSwitch, if_pos (hone.2 h1)]
      rw [State.switchScene, hmode, ← hscenes]
      rfl
    · have hmode : keptSwitch m.switchMode = .atDelay := by
        rw [keptSwitch, if_neg (mt hone.1 (by omega)), if_pos (htwo.2 h2)]
      rw [State.switchScene, hmode]
      simp only [elapsedCount, hclock, if_pos hpast]
      exact s1.sceneTakesEffect_taken _
    · have hmode : keptSwitch m.switchMode = .atDelay := by
        rw [keptSwitch, if_neg (mt hone.1 (by omega)), if_pos (htwo.2 h2)]
      rw [State.switchScene, hmode, ← hscenes]
      refine (if_neg ?_).trans rfl
      rw [elapsedCount, hclock]
      exact not_le.2 hahead

theorem delayedSceneTakesEffectAtItsDuePoint : Clause.DelayedSceneTakesEffectAtItsDuePoint := by
  intro s p hreset ho hp hdue
  let s1 : State := { s with owed := s.owed.erase .sceneDuePoint }
  refine ⟨s1.takeDueScene, takeOwed_performs hreset ho, ?_⟩
  have htakes : s1.takeDueScene = s1.sceneTakesEffect p.scene := by
    have hp1 : s1.scenes.pending = some p := hp
    have hclock : s1.clock = s.clock := rfl
    simp only [State.takeDueScene, hp1, hdue, hclock, if_true]
  rw [htakes]
  exact s1.sceneTakesEffect_taken _

/-- Settles O28: the branches of the switch, and the due point's own command. -/
theorem scenesTakeEffectWhenTheirSwitchSays : Obligations.ScenesTakeEffectWhenTheirSwitchSays :=
  ⟨sceneIsSwitchedInByItsMode, delayedSceneTakesEffectAtItsDuePoint⟩

/-! ### Bypass (R68, R69, R123) -/

theorem bypassOn_eq (s : State) : s.bypassOn = { s with
    scenes := { s.scenes with bypass := true }
    alloc := { s.alloc with
      voices := Quad.const clearedVoice, record := { live := s.follower.heldNote, entries := [] }, sincePlacement := 0 }
    channels := Quad.ofFn fun v => if s.enabled v then (s.channel v).noTarget else s.channel v
    line := s.line.placeClaim { live := s.follower.heldNote, entries := [] } } := by
  simp only [State.bypassOn, State.postNoTargets_eq]
  rfl

theorem bypassOnWithdrawsTheVoices : Clause.BypassOnWithdrawsTheVoices := by
  intro s h
  have haccept : exec .bypassOn s = .next s.acceptBypassOn := takeAccepted_of_ready h .bypassOn
  refine ⟨fun hset => ?_, fun hclear => ⟨s.bypassOn, ?_, ?_⟩⟩
  · rw [haccept, State.acceptBypassOn, if_pos hset]
  · rw [haccept, State.acceptBypassOn, hclear]
    rfl
  · rw [bypassOn_eq]
    refine ⟨rfl, LineControl.placeClaim_placed _ _, fun v => ⟨Quad.get_const _ v, fun he => ?_, fun he => ?_⟩⟩
    · simp only [State.channel, Quad.get_ofFn, he, if_true]
      exact Channel.noTarget_posted _
    · simp only [State.channel, Quad.get_ofFn, he, Bool.false_eq_true, if_false]

/-- Settles O29: bypass-on written out, and the flag that BYPASS_OFF clears. -/
theorem bypassWithdrawsTheVoicesUntilCleared : Obligations.BypassWithdrawsTheVoicesUntilCleared :=
  ⟨bypassOnWithdrawsTheVoices, fun _ h => takeAccepted_of_ready h .bypassOff⟩

end

end Sys2Proof.ScenesAndControls

/-! PROOF. Grains: the window that a FETCH reads, the sums that a PLACE adds to, and the positions of both (sections 8.3
and 8.4). -/

namespace Sys2Proof.Grains

open Sys2Proof.Machine

/-! ### The captured samples under a grain (R135) -/

section
variable {m : Mark}

/-- The captured positions nearer to the mark than a period are the ones from the oldest to the newest. -/
theorem near_iff (j : Int) :
    (16 * j - m.pos.toNat).natAbs < m.period ↔ oldestIndex m ≤ j ∧ j ≤ newestIndex m := by
  unfold oldestIndex newestIndex
  omega

theorem samples_eq (ring : Cells Sample) : (readGrain ring m).samples =
    (List.range (newestIndex m - oldestIndex m + 1).toNat).map fun i : Nat =>
      windowedSample ring m (oldestIndex m + (i : Int)) := by
  simp [readGrain, ← List.map_eq_flatMap, Function.comp_def]

theorem mem_samples_iff (ring : Cells Sample) (x : Int × Int) : x ∈ (readGrain ring m).samples ↔
    ∃ j : Int, (oldestIndex m ≤ j ∧ j ≤ newestIndex m) ∧ windowedSample ring m j = x := by
  rw [samples_eq]
  simp only [List.mem_map, List.mem_range]
  constructor
  · rintro ⟨i, hi, hx⟩
    exact ⟨oldestIndex m + i, by omega, hx⟩
  · rintro ⟨j, ⟨hlow, hhigh⟩, hx⟩
    have hplace : oldestIndex m + ((j - oldestIndex m).toNat : Int) = j := by omega
    exact ⟨(j - oldestIndex m).toNat, by omega, by rwa [hplace]⟩

theorem grainIsTheTriangularWindow : Clause.GrainIsTheTriangularWindow := by
  intro ring m _
  refine ⟨rfl, ?_, fun u w => ?_⟩
  · rw [samples_eq]
    refine List.pairwise_map.2 (List.pairwise_lt_range.imp fun {i j} hij => ?_)
    simp only [windowedSample]
    omega
  · rw [mem_samples_iff]
    constructor
    · rintro ⟨j, hj, hx⟩
      cases hx
      exact ⟨j, rfl, (near_iff j).2 hj, rfl⟩
    · rintro ⟨j, rfl, hj, rfl⟩
      exact ⟨j, (near_iff j).1 hj, rfl⟩

end

/-! ### What a PLACE adds (R137) -/

/-- The overlap buffer after one more windowed sample. -/
def addSample (mark : Pos16) (k : Nat) (o : Cells Int) (x : Int × Int) : Cells Int :=
  writeOverlap o (landing mark x.1) (readOverlap o (landing mark x.1) + roundHalfUp (x.2 * Config.unison) k)

theorem readOverlap_congr (o : Cells Int) {p q : Pos} (h : p.toNat % 2048 = q.toNat % 2048) :
    readOverlap o p = readOverlap o q :=
  congrArg (Cells.read 0 o) h

theorem readOverlap_addSample (mark : Pos16) (k : Nat) (x : Int × Int) (p : Pos) {o : Cells Int}
    (h : Cells.wf 0 o = true) : readOverlap (addSample mark k o x) p = readOverlap o p +
      if (landing mark x.1).toNat % 2048 = p.toNat % 2048 then roundHalfUp (x.2 * 4096) k else 0 := by
  rw [addSample, readOverlap_writeOverlap _ _ _ h]
  by_cases hp : (landing mark x.1).toNat % 2048 = p.toNat % 2048
  · rw [if_pos hp.symm, if_pos hp, readOverlap_congr o hp]
    rfl
  · rw [if_neg fun hq => hp hq.symm, if_neg hp, add_zero]

theorem placeAddsTheScaledGrain : Clause.PlaceAddsTheScaledGrain := by
  intro o g mark k p h
  show readOverlap (g.samples.foldl (addSample mark k) o) p = _
  generalize g.samples = l
  induction l generalizing o with
  | nil => exact (add_zero _).symm
  | cons x l ih =>
    rw [List.foldl_cons, ih (o := addSample mark k o x) (wf_writeOverlap _ _ h), readOverlap_addSample mark k x p h, List.filter_cons]
    by_cases hp : (landing mark x.1).toNat % 2048 = p.toNat % 2048
    · rw [if_pos hp, if_pos (decide_eq_true hp), List.map_cons, List.sum_cons, add_assoc]
    · rw [if_neg hp, if_neg (by simpa using hp), add_zero]

/-! ### Positions (R135, R137) -/

theorem landing_eq (mark : Pos16) (u : Int) :
    landing mark u = BitVec.ofInt 24 (roundHalfUp ((mark.toNat : Int) + u) 16) := by
  apply BitVec.eq_of_toNat_eq
  rw [landing, BitVec.toNat_setWidth, BitVec.toNat_ushiftRight, BitVec.toNat_add, BitVec.toNat_add, BitVec.toNat_ofInt,
    BitVec.toNat_ofInt, Nat.shiftRight_eq_div_pow, roundHalfUp]
  simp only [BitVec.toNat_ofNat]
  have hu : 0 ≤ u % (2 ^ 28 : Nat) := Int.emod_nonneg _ (by norm_num)
  have hr : 0 ≤ (2 * ((mark.toNat : Int) + u) + (16 : Nat)) / (2 * (16 : Nat)) % (2 ^ 24 : Nat) :=
    Int.emod_nonneg _ (by norm_num)
  omega

theorem oldestIndex_eq_ceil (m : Mark) : oldestIndex m = ⌈((m.pos.toNat : ℚ) - m.period + 1) / 16⌉ := by
  symm
  rw [Int.ceil_eq_iff, lt_div_iff₀ (by norm_num), div_le_iff₀ (by norm_num)]
  have hlow : (oldestIndex m - 1) * 16 < (m.pos.toNat : Int) - m.period + 1 := by
    unfold oldestIndex
    omega
  have hhigh : (m.pos.toNat : Int) - m.period + 1 ≤ oldestIndex m * 16 := by
    unfold oldestIndex
    omega
  exact ⟨by exact_mod_cast hlow, by exact_mod_cast hhigh⟩

theorem positionsFollowTheirFormulas : Clause.PositionsFollowTheirFormulas := by
  refine ⟨landing_eq, fun g mark u w rest h => by rw [firstPosition, h], fun m => ?_⟩
  rw [← oldestIndex_eq_ceil]
  refine ⟨rfl, fun ring mark hperiod => ?_⟩
  have hcount : (newestIndex m - oldestIndex m + 1).toNat = (newestIndex m - oldestIndex m).toNat + 1 := by
    unfold newestIndex oldestIndex
    omega
  rw [← landing_eq, firstPosition, samples_eq, hcount, List.range_succ_eq_map]
  simp [windowedSample]

/-- Settles O30: the window by its ends, the sums by induction on the samples, the positions by their remainders. -/
theorem grainsAreWindowedThenScaled : Obligations.GrainsAreWindowedThenScaled :=
  ⟨grainIsTheTriangularWindow, placeAddsTheScaledGrain, positionsFollowTheirFormulas⟩

end Sys2Proof.Grains

/-! PROOF. The grain cycle (sections 8.3 and 8.4): one advance, due placement points, PLACE completions, and drops. -/

namespace Sys2Proof.GrainCycle

open Sys2Proof.Machine Sys2Proof.Postings Sys2Proof.AllocatingDecision Sys2Proof.TrackerEvents Sys2Proof.Arrival

/-! ### The steps of an advance (R138) -/

section
variable {v : Voice} {s : State} {c : Channel} {k : Nat} {mark : Pos16}

theorem takePostedStep_eq (v : Voice) (s : State) : s.takePostedStep v = s.setChannel v { s.channel v with
    stepInForce := if (s.voice v).postedStep.isSome then (s.voice v).postedStep else (s.channel v).stepInForce } := by
  unfold State.takePostedStep
  cases h : (s.voice v).postedStep with
  | none => exact (State.setChannel_channel v s).symm
  | some k => simp

theorem takePostedStep_setChannel (hk : c.stepInForce = some k) : (s.setChannel v c).takePostedStep v =
    s.setChannel v { c with stepInForce := some ((s.voice v).postedStep.getD k) } := by
  rw [takePostedStep_eq]
  cases h : (s.voice v).postedStep <;> simp [h, hk]

theorem grainSpacing_some (g : Grain) (k : Nat) : grainSpacing g (some k) =
    if g.mark.voiced = true then (roundHalfUp (g.mark.period * 4096) k).toNat else g.mark.period := by
  simp [grainSpacing, Config.unison]

theorem grainScale_some (g : Grain) (k : Nat) :
    grainScale g (some k) = if g.mark.voiced = true then k else 4096 := rfl

theorem schedule_setChannel (placed : Grain) (hk : c.stepInForce = some k) (hm : c.outputMark = some mark) :
    (s.setChannel v c).schedule v placed =
      s.setChannel v { c with outputMark := some (mark + BitVec.ofNat 28 (grainSpacing placed (some k))) } := by
  simp [State.schedule, hk, hm]

/-- The choice of a source for an EMPTY register (R133, R134). -/
def chosenRegister (m : Mark) (current : Option Grain) : NextReg :=
  match current with
  | some g => if g.mark.pos = m.pos then .ready g else .fetching m
  | none => .fetching m

theorem chooseSource_of_held (h : (s.channel v).next ≠ .empty) : s.chooseSource v = s := by
  simp only [State.chooseSource]
  split
  · rfl
  · rfl
  · next he => exact absurd he h

theorem chooseSource_of_none (h : chooseMark s.marks s.clock ((s.channel v).outputMark.getD 0 - 12288) = none) :
    s.chooseSource v = s := by
  have h' : chooseMark s.marks s.clock
      ((s.channel v).outputMark.getD 0 - BitVec.ofNat 28 Config.sourceDelay) = none := h
  simp only [State.chooseSource, h']
  split <;> rfl

theorem chooseSource_of_some {m : Mark} (he : (s.channel v).next = .empty)
    (h : chooseMark s.marks s.clock ((s.channel v).outputMark.getD 0 - 12288) = some m) :
    s.chooseSource v =
      if ∃ g, (s.channel v).current = some g ∧ g.mark.pos = m.pos then
        s.setChannel v { s.channel v with next := chosenRegister m (s.channel v).current }
      else (s.setChannel v { s.channel v with next := .fetching m }).requestFetch v m := by
  have h' : chooseMark s.marks s.clock
      ((s.channel v).outputMark.getD 0 - BitVec.ofNat 28 Config.sourceDelay) = some m := h
  simp only [State.chooseSource, he, h']
  cases hc : (s.channel v).current with
  | none => simp
  | some g =>
    by_cases hp : g.mark.pos = m.pos
    · simp [hp, chosenRegister]
    · simp [hp]

/-- What a choice leaves: all but the next register of the channel, and the waiting jobs. -/
theorem chooseSource_leaves (v : Voice) (s : State) : ∃ next b, s.chooseSource v =
    { s.setChannel v { s.channel v with next := next } with arbiter := b } := by
  have hself : s = { s.setChannel v { s.channel v with next := (s.channel v).next } with arbiter := s.arbiter } :=
    (State.setChannel_channel v s).symm
  have hfetch : ∀ m, ∃ b, (s.setChannel v { s.channel v with next := .fetching m }).requestFetch v m =
      { s.setChannel v { s.channel v with next := .fetching m } with arbiter := b } := fun m => by
    unfold State.requestFetch
    split <;> exact ⟨_, rfl⟩
  simp only [State.chooseSource]
  split
  · exact ⟨_, _, hself⟩
  · exact ⟨_, _, hself⟩
  · split
    · exact ⟨_, _, hself⟩
    · next m _ =>
      split
      · split
        · exact ⟨_, s.arbiter, rfl⟩
        · exact ⟨_, hfetch m⟩
      · exact ⟨_, hfetch m⟩

theorem promote_ready {g : Grain} (h : (s.channel v).next = .ready g) :
    s.promote v = s.setChannel v { s.channel v with current := some g, next := .empty } := by
  simp only [State.promote, h]

theorem promote_repeat (h : ∀ g, (s.channel v).next ≠ .ready g) : s.promote v = s.bump .repeats := by
  simp only [State.promote]
  split
  · next g hg => exact absurd hg (h g)
  · rfl
  · rfl

end

/-! ### One advance (R138, R140, R142) -/

/-- What one advance leaves to its last step: a drop and another advance, a PLACE at once, or nothing more. -/
def advanceOn (v : Voice) (n : Nat) (cur : Grain) (mark2 : Pos16) (s1 : State) : State :=
  if 0 ≤ (s1.clock - firstPosition cur mark2).toInt then State.advanceCycle v n cur (s1.bump .drop)
  else if 0 ≤ (s1.clock - (firstPosition cur mark2 - 64)).toInt then
    State.request (.place v cur mark2) (s1.setChannel v { s1.channel v with placementPoint := none })
  else s1

section
variable {v : Voice} {n : Nat} {s base : State} {c : Channel} {placed cur : Grain} {k : Nat} {mark mark2 : Pos16}

/-- The channel after steps 1 to 4 of an advance that has promoted or kept `cur` (R138). -/
def movedChannel (base : State) (v : Voice) (c : Channel) (cur : Grain) (k : Nat) (mark2 : Pos16) : Channel :=
  { c with
    stepInForce := some ((base.voice v).postedStep.getD k)
    outputMark := some mark2
    placementPoint := some (firstPosition cur mark2 - 64) }

theorem advanceCycle_of_promoted (hp : s.promote v = base.setChannel v c) (hcur : c.current = some cur)
    (hk : c.stepInForce = some k) (hm : c.outputMark = some mark)
    (hmark2 : mark2 = mark + BitVec.ofNat 28 (grainSpacing placed (some ((base.voice v).postedStep.getD k)))) :
    s.advanceCycle v (n + 1) placed =
      advanceOn v n cur mark2 ((base.setChannel v (movedChannel base v c cur k mark2)).chooseSource v) := by
  have hscheduled : ((s.promote v).takePostedStep v).schedule v placed = base.setChannel v { c with
      stepInForce := some ((base.voice v).postedStep.getD k), outputMark := some mark2 } := by
    rw [hp, takePostedStep_setChannel hk, hmark2]
    exact schedule_setChannel (c := { c with stepInForce := some ((base.voice v).postedStep.getD k) }) placed rfl hm
  have hpoint : (base.setChannel v { c with
      stepInForce := some ((base.voice v).postedStep.getD k), outputMark := some mark2 }).setPlacementPoint v
        (firstPosition cur mark2 - 64) = base.setChannel v (movedChannel base v c cur k mark2) := by
    simp [State.setPlacementPoint, movedChannel]
  obtain ⟨next, b, hchosen⟩ := chooseSource_leaves v (base.setChannel v (movedChannel base v c cur k mark2))
  have houtput : (((base.setChannel v (movedChannel base v c cur k mark2)).chooseSource v).channel v).outputMark =
      some mark2 := by
    rw [hchosen]
    simp [State.channel, movedChannel]
  have hlead : firstPosition cur mark2 - BitVec.ofNat 24 Config.placementLead = firstPosition cur mark2 - 64 := rfl
  have hcurrent : ({ c with
      stepInForce := some ((base.voice v).postedStep.getD k), outputMark := some mark2 } : Channel).current = some cur :=
    hcur
  have hmark : ({ c with
      stepInForce := some ((base.voice v).postedStep.getD k), outputMark := some mark2 } : Channel).outputMark =
        some mark2 := rfl
  generalize ({ c with
    stepInForce := some ((base.voice v).postedStep.getD k)
    outputMark := some mark2 } : Channel) = d at hscheduled hpoint hcurrent hmark
  simp only [State.advanceCycle, hscheduled, State.channel_setChannel_same, hcurrent, hmark, Option.getD_some, hlead,
    hpoint]
  generalize (base.setChannel v (movedChannel base v c cur k mark2)).chooseSource v = s1 at houtput
  simp only [advanceOn, isDue_iff, State.requestPlace, houtput, Option.getD_some]

/-- A promotion of a READY grain, with the channel that it leaves (R138 step 1). -/
theorem promote_keeps_or_takes (hcounters : s.counters.repeats ≤ 65535) {next2 : NextReg} {repeats : Nat}
    (h : ((s.channel v).next = .ready cur ∧ next2 = .empty ∧ repeats = s.counters.repeats) ∨
      ((∀ g, (s.channel v).next ≠ .ready g) ∧ (s.channel v).current = some cur ∧ next2 = (s.channel v).next ∧
        repeats = min 65535 (s.counters.repeats + 1))) :
    s.promote v = State.setChannel v { s.channel v with current := some cur, next := next2 }
      { s with counters := { s.counters with repeats := repeats } } := by
  rcases h with ⟨hready, rfl, rfl⟩ | ⟨hnot, hcur, rfl, rfl⟩
  · exact promote_ready hready
  · rw [promote_repeat hnot, State.bump, Counters.bump, satSucc_eq_min _ hcounters, ← hcur]
    exact (State.setChannel_channel v _).symm

theorem bump_drop {s : State} (h : s.counters.drop ≤ 65535) :
    s.bump .drop = { s with counters := { s.counters with drop := min 65535 (s.counters.drop + 1) } } := by
  rw [State.bump, Counters.bump, satSucc_eq_min _ h]

theorem advanceTakesItsStepsInOrder : Clause.AdvanceTakesItsStepsInOrder := by
  intro v n s placed cur next2 repeats k2 mark mark2 k hm hk hk2 hmark2 hrepeats hdrop hpromotes first choice base moved
  have hp := promote_keeps_or_takes hrepeats hpromotes
  have hmoved : movedChannel base v { s.channel v with current := some cur, next := next2 } cur k mark2 = moved := by
    show _ = ({ s.channel v with
      current := some cur, next := next2, stepInForce := some k2, outputMark := some mark2,
      placementPoint := some (firstPosition cur mark2 - 64) } : Channel)
    rw [hk2]
    rfl
  have hadvance := advanceCycle_of_promoted (n := n) (placed := placed) (base := base) hp rfl hk hm
    (mark2 := mark2) (by rw [grainSpacing_some, hmark2, hk2]; rfl)
  rw [hmoved] at hadvance
  obtain ⟨next, b, hleaves⟩ := chooseSource_leaves v (base.setChannel v moved)
  have hclock : ((base.setChannel v moved).chooseSource v).clock = s.clock := by
    rw [hleaves]
    rfl
  have hcounter : ((base.setChannel v moved).chooseSource v).counters.drop = s.counters.drop := by
    rw [hleaves]
    rfl
  have hchannel : (base.setChannel v moved).channel v = moved := State.channel_setChannel_same v moved base
  have hnext : moved.next = next2 := rfl
  have hcurrent : moved.current = some cur := rfl
  have houtput : moved.outputMark.getD 0 = mark2 := rfl
  refine ⟨(base.setChannel v moved).chooseSource v, fun h => ?_, fun m he hc hpos => ?_, fun m he hc hpos => ?_, ?_⟩
  · rcases h with h | h
    · exact chooseSource_of_held (by rw [hchannel, hnext]; exact h)
    · exact chooseSource_of_none (by rw [hchannel, houtput]; exact h)
  · rw [chooseSource_of_some (m := m) (by rw [hchannel, hnext]; exact he) (by rw [hchannel, houtput]; exact hc), hchannel,
      if_pos ⟨cur, hcurrent, hpos.symm⟩, State.setChannel_setChannel, hcurrent, chosenRegister, if_pos hpos.symm]
  · rw [chooseSource_of_some (m := m) (by rw [hchannel, hnext]; exact he) (by rw [hchannel, houtput]; exact hc), hchannel,
      if_neg, State.setChannel_setChannel]
    rintro ⟨g, hg, hgp⟩
    rw [hcurrent] at hg
    cases hg
    exact hpos hgp.symm
  · rw [hadvance]
    generalize (base.setChannel v moved).chooseSource v = s1 at hclock hcounter ⊢
    have hbump : s1.bump .drop =
        { s1 with counters := { s1.counters with drop := min 65535 (s.counters.drop + 1) } } := by
      rw [bump_drop (by rw [hcounter]; exact hdrop), hcounter]
    rw [advanceOn, hbump, hclock]

end

/-! ### PLACE completions (R138, R142, R145, R152, R153) -/

section
variable {v : Voice} {s : State} {g : Grain} {mark : Pos16} {k : Nat} {f : Fate}

theorem cycleFuel_enough (v : Voice) (s : State) : ∃ n, 32767 ≤ n ∧ s.cycleFuel v = n + 1 :=
  ⟨s.cycleFuel v - 1, by unfold State.cycleFuel; omega, by unfold State.cycleFuel; omega⟩

/-- The channel after the part of a PLACE's completion that adds its grain, unless it was dropped (R137, R139). -/
def addedChannel (c : Channel) (g : Grain) (mark : Pos16) (k : Nat) (f : Fate) : Channel := { c with
  overlap := if f = .live then addGrain c.overlap g mark (if g.mark.voiced = true then k else 4096) else c.overlap
  rampStart := if f = .live ∧ c.rampStart = none then some (firstPosition g mark) else c.rampStart }

theorem placeGrain_eq (hk : (s.channel v).stepInForce = some k) :
    s.placeGrain v g mark = s.setChannel v (addedChannel (s.channel v) g mark k .live) := by
  simp [State.placeGrain, addedChannel, hk, grainScale_some]

theorem addedChannel_dropped (c : Channel) : addedChannel c g mark k .dropped = c := by
  simp [addedChannel]

theorem advanceIfRunning_of_running (h : (s.channel v).cycleRunning = true) :
    s.advanceIfRunning v g = s.advanceCycle v (s.cycleFuel v) g := if_pos h

theorem placeDone_of_running (hrun : (s.channel v).cycleRunning = true) (hk : (s.channel v).stepInForce = some k)
    (hf : f = .live ∨ f = .dropped) : ∃ n, 32767 ≤ n ∧ s.placeDone v g mark f =
      (s.setChannel v (addedChannel (s.channel v) g mark k f)).advanceCycle v (n + 1) g := by
  have hrun' : ((s.setChannel v (addedChannel (s.channel v) g mark k f)).channel v).cycleRunning = true := by
    rw [State.channel_setChannel_same]
    exact hrun
  obtain ⟨n, hn, hfuel⟩ := cycleFuel_enough v (s.setChannel v (addedChannel (s.channel v) g mark k f))
  refine ⟨n, hn, ?_⟩
  rw [← hfuel, ← advanceIfRunning_of_running hrun']
  rcases hf with rfl | rfl
  · rw [State.placeDone, placeGrain_eq hk]
  · rw [State.placeDone, addedChannel_dropped, State.setChannel_channel]

theorem exec_placeCompletion (h : s.ready) (hr : s.arbiter.running = some { job := .place v g mark, fate := f }) :
    exec .placeCompletion s = .next (s.placeDone v g mark f).finishJob := by
  rw [show exec .placeCompletion s = .next s.completePlace from whenReleased_settle h State.completePlace,
    State.completePlace, hr]

/-- The grant at the end of a PLACE's completion. -/
theorem exec_placeCompletion_from {t : State} (h : s.ready)
    (hr : s.arbiter.running = some { job := .place v g mark, fate := f }) (ht : s.placeDone v g mark f = t) :
    ∃ b, b.GrantedFrom t.arbiter.list ∧ exec .placeCompletion s = .next { t with arbiter := b } := by
  obtain ⟨b, hb, hgrant⟩ := t.finishJob_from
  exact ⟨b, hgrant, by rw [exec_placeCompletion h hr, ht, hb]⟩

theorem withdrawnPlaceChangesNothing : Clause.WithdrawnPlaceChangesNothing := by
  intro s v g mark f h hr hf
  refine exec_placeCompletion_from h hr ?_
  rcases hf with rfl | ⟨rfl, hstopped⟩
  · rfl
  · rw [State.placeDone, State.advanceIfRunning, hstopped]
    rfl

theorem overtakenPlaceAddsItsGrain : Clause.OvertakenPlaceAddsItsGrain := by
  intro s v g mark k h hr hk
  obtain ⟨b, hgrant, hexec⟩ := exec_placeCompletion_from h hr rfl
  rw [State.placeDone, placeGrain_eq hk] at hgrant hexec
  refine ⟨b, hgrant, hexec.trans ?_⟩
  simp only [addedChannel, true_and, if_true]
  rfl

/-! ### Dropped PLACEs (R142) -/

theorem overdue_isPlaceOf {clock : Pos} {j : Job} (h : j.overdue clock v = true) : j.isPlaceOf v = true := by
  cases j with
  | place o g mark =>
    simp only [Job.overdue, Bool.and_eq_true] at h
    exact h.1
  | fetch | analysis => cases h

theorem place_overdue {clock : Pos} (h : 0 ≤ (clock - firstPosition g mark).toInt) :
    (Job.place v g mark).overdue clock v = true := by
  simp only [Job.overdue, decide_true, Bool.true_and]
  exact isDue_iff.2 h

theorem dropRunning_of_other (h : ∀ r, s.arbiter.running = some r → r.job.isPlaceOf v = false) :
    s.dropRunning v = s := by
  unfold State.dropRunning
  split
  · next r hr =>
    refine if_neg fun hdue => ?_
    rw [Running.overdue, Bool.and_eq_true] at hdue
    have hplace := overdue_isPlaceOf hdue.1
    rw [h r hr] at hplace
    cases hplace
  · rfl

theorem dropWaiting_of_none (h : ∀ j ∈ s.arbiter.list, j.isPlaceOf v = false) : s.dropWaiting v = s := by
  have hnone : s.arbiter.list.find? (Job.overdue s.clock v) = none := by
    rw [List.find?_eq_none]
    intro j hj hdue
    have hplace := overdue_isPlaceOf hdue
    rw [h j hj] at hplace
    cases hplace
  simp only [State.dropWaiting, hnone]

/-- The voice's one waiting PLACE is the one that is found late. -/
theorem find_overdue (hlist : s.arbiter.list.filter (Job.isPlaceOf v) = [.place v g mark])
    (hdue : 0 ≤ (s.clock - firstPosition g mark).toInt) :
    s.arbiter.list.find? (Job.overdue s.clock v) = some (.place v g mark) := by
  have hsub : s.arbiter.list.filter (Job.overdue s.clock v) =
      (s.arbiter.list.filter (Job.isPlaceOf v)).filter (Job.overdue s.clock v) := by
    rw [List.filter_filter]
    refine List.filter_congr fun j _ => ?_
    cases h : j.overdue s.clock v
    · rfl
    · rw [overdue_isPlaceOf h]
      rfl
  rw [← List.head?_filter, hsub, hlist, List.filter_cons_of_pos (place_overdue hdue)]
  rfl

theorem dropWaiting_advances (hlist : s.arbiter.list.filter (Job.isPlaceOf v) = [.place v g mark])
    (hdue : 0 ≤ (s.clock - firstPosition g mark).toInt) (hdrop : s.counters.drop ≤ 65535)
    (hrun : (s.channel v).cycleRunning = true) : ∃ n, 32767 ≤ n ∧ s.dropWaiting v = State.advanceCycle v (n + 1) g
      { s with
        arbiter := { s.arbiter with list := s.arbiter.list.erase (.place v g mark) }
        counters := { s.counters with drop := min 65535 (s.counters.drop + 1) } } := by
  let t : State := { s with arbiter := { s.arbiter with list := s.arbiter.list.erase (.place v g mark) } }
  have hbump : t.bump .drop = { s with
      arbiter := { s.arbiter with list := s.arbiter.list.erase (.place v g mark) }
      counters := { s.counters with drop := min 65535 (s.counters.drop + 1) } } := bump_drop hdrop
  have hwaiting : s.dropWaiting v = (t.bump .drop).advanceIfRunning v g := by
    simp only [State.dropWaiting, find_overdue hlist hdue, Job.grain?]
    rfl
  obtain ⟨n, hn, hfuel⟩ := cycleFuel_enough v (t.bump .drop)
  refine ⟨n, hn, ?_⟩
  rw [hwaiting, advanceIfRunning_of_running (s := t.bump .drop) hrun, hfuel, hbump]

theorem completionsAndDropsAdvanceTheCycle : Clause.CompletionsAndDropsAdvanceTheCycle := by
  intro s v g mark k hreset hrun hk
  refine ⟨?_, fun ho hdue hdrop hlist hother => ?_⟩
  · intro f howed hr hf added
    obtain ⟨n, hn, hdone⟩ := placeDone_of_running (g := g) (mark := mark) hrun hk hf
    obtain ⟨b, hgrant, hexec⟩ := exec_placeCompletion_from ⟨hreset, howed⟩ hr hdone
    exact ⟨n, b, hn, hgrant, hexec⟩
  · obtain ⟨n, hn, hdropped⟩ := dropWaiting_advances (s := { s with owed := s.owed.erase (.grainDrop v) })
      hlist hdue hdrop hrun
    refine ⟨n, hn, (takeOwed_performs hreset ho).trans (congrArg Host.Outcome.next ?_)⟩
    rw [State.perform, State.dropGrain,
      dropRunning_of_other (s := { s with owed := s.owed.erase (.grainDrop v) }) hother]
    exact hdropped

/-- Settles O34: one advance by its steps, and the ends of a PLACE that start it. -/
theorem cycleAdvancesWhateverItsRegistersHold : Obligations.CycleAdvancesWhateverItsRegistersHold :=
  ⟨advanceTakesItsStepsInOrder, completionsAndDropsAdvanceTheCycle⟩

/-! ### An advance with room ahead -/

theorem advanceOn_ahead {n : Nat} {cur : Grain} {mark2 : Pos16} {s1 : State}
    (hfirst : (s1.clock - firstPosition cur mark2).toInt < 0)
    (hpoint : (s1.clock - (firstPosition cur mark2 - 64)).toInt < 0) : advanceOn v n cur mark2 s1 = s1 := by
  rw [advanceOn, if_neg (not_le.2 hfirst), if_neg (not_le.2 hpoint)]

theorem chooseSource_clock (v : Voice) (s : State) : (s.chooseSource v).clock = s.clock := by
  obtain ⟨next, b, h⟩ := chooseSource_leaves v s
  rw [h]
  rfl

/-- An advance that repeats the current grain, with the next register FETCHING (R140). -/
theorem advanceCycle_repeats {n : Nat} {m : Mark} {k2 : Nat} {mark2 : Pos16} (hcur : (s.channel v).current = some g)
    (hnext : (s.channel v).next = .fetching m) (hk : (s.channel v).stepInForce = some k)
    (hm : (s.channel v).outputMark = some mark) (hk2 : k2 = (s.voice v).postedStep.getD k)
    (hmark2 : mark2 = mark + BitVec.ofNat 28
      (if g.mark.voiced = true then (roundHalfUp (g.mark.period * 4096) k2).toNat else g.mark.period))
    (hfirst : (s.clock - firstPosition g mark2).toInt < 0) (hpoint : (s.clock - (firstPosition g mark2 - 64)).toInt < 0)
    (hrepeats : s.counters.repeats ≤ 65535) : s.advanceCycle v (n + 1) g = State.setChannel v
      { s.channel v with
        stepInForce := some k2, outputMark := some mark2, placementPoint := some (firstPosition g mark2 - 64) }
      { s with counters := { s.counters with repeats := min 65535 (s.counters.repeats + 1) } } := by
  let base : State := { s with counters := { s.counters with repeats := min 65535 (s.counters.repeats + 1) } }
  have hp : s.promote v = base.setChannel v (s.channel v) := by
    rw [promote_repeat (by rw [hnext]; nofun), State.bump, Counters.bump, satSucc_eq_min _ hrepeats]
    exact (State.setChannel_channel v base).symm
  have hadvance := advanceCycle_of_promoted (n := n) (placed := g) (mark2 := mark2) hp hcur hk hm
    (by rw [grainSpacing_some, hmark2, hk2]; rfl)
  have hmoved : movedChannel base v (s.channel v) g k mark2 = { s.channel v with
      stepInForce := some k2, outputMark := some mark2, placementPoint := some (firstPosition g mark2 - 64) } := by
    rw [hk2]
    rfl
  have hheld : (base.setChannel v (movedChannel base v (s.channel v) g k mark2)).chooseSource v =
      base.setChannel v (movedChannel base v (s.channel v) g k mark2) := by
    refine chooseSource_of_held ?_
    rw [State.channel_setChannel_same]
    show (s.channel v).next ≠ .empty
    rw [hnext]
    nofun
  rw [hadvance, hheld, hmoved]
  exact advanceOn_ahead hfirst hpoint

theorem promotionWithoutAReadyGrainRepeats : Clause.PromotionWithoutAReadyGrainRepeats := by
  intro s v g m mark mark2 k k2 f h hr hf hrun hcur hnext hk hm hk2 hmark2 hfirst hpoint hrepeats
  obtain ⟨n, -, hdone⟩ := placeDone_of_running (g := g) (mark := mark) hrun hk hf
  let added : State := s.setChannel v (addedChannel (s.channel v) g mark k f)
  have hadded : added.channel v = addedChannel (s.channel v) g mark k f := State.channel_setChannel_same _ _ _
  rw [advanceCycle_repeats (s := added) (m := m) (by rw [hadded]; exact hcur) (by rw [hadded]; exact hnext)
    (by rw [hadded]; exact hk) (by rw [hadded]; exact hm) (hk2.trans (by simp [added])) hmark2 hfirst hpoint hrepeats,
    hadded] at hdone
  obtain ⟨b, hgrant, hexec⟩ := exec_placeCompletion_from h hr hdone
  refine ⟨b, hgrant, hexec.trans (congrArg Host.Outcome.next ?_)⟩
  simp [added, State.setChannel, addedChannel]

end

/-! ### The completion that promotes (R133, R134, R138) -/

section
variable {v : Voice} {s : State} {g g2 : Grain} {mark mark2 : Pos16} {k k2 : Nat}

/-- An advance that promotes a READY grain, as far as the choice of a source. -/
theorem advanceCycle_promotes {n : Nat} (hnext : (s.channel v).next = .ready g2)
    (hk : (s.channel v).stepInForce = some k) (hm : (s.channel v).outputMark = some mark)
    (hk2 : k2 = (s.voice v).postedStep.getD k)
    (hmark2 : mark2 = mark + BitVec.ofNat 28
      (if g.mark.voiced = true then (roundHalfUp (g.mark.period * 4096) k2).toNat else g.mark.period))
    (hfirst : (s.clock - firstPosition g2 mark2).toInt < 0)
    (hpoint : (s.clock - (firstPosition g2 mark2 - 64)).toInt < 0) :
    s.advanceCycle v (n + 1) g = (s.setChannel v { s.channel v with
      current := some g2, next := .empty, stepInForce := some k2, outputMark := some mark2
      placementPoint := some (firstPosition g2 mark2 - 64) }).chooseSource v := by
  have hmoved : movedChannel s v { s.channel v with current := some g2, next := .empty } g2 k mark2 =
      { s.channel v with current := some g2, next := .empty, stepInForce := some k2, outputMark := some mark2
                         placementPoint := some (firstPosition g2 mark2 - 64) } := by
    rw [hk2]
    rfl
  rw [advanceCycle_of_promoted (n := n) (placed := g) (mark2 := mark2) (promote_ready hnext) rfl hk hm
    (by rw [grainSpacing_some, hmark2, hk2]), hmoved]
  refine advanceOn_ahead ?_ ?_
  · rw [chooseSource_clock]
    exact hfirst
  · rw [chooseSource_clock]
    exact hpoint

theorem readyGrainIsPromotedAtTheCompletion : Clause.ReadyGrainIsPromotedAtTheCompletion := by
  intro s v g g2 mark mark2 k k2 h hr hrun hnext hk hm hk2 hmark2 hfirst hpoint advanced choice
  obtain ⟨n, -, hdone⟩ := placeDone_of_running (g := g) (mark := mark) hrun hk (.inl rfl)
  let added : State := s.setChannel v (addedChannel (s.channel v) g mark k .live)
  have hadded : added.channel v = addedChannel (s.channel v) g mark k .live := State.channel_setChannel_same _ _ _
  have hvoice : added.voice v = s.voice v := State.voice_setChannel _ _ _ _
  have hmoved : ({ addedChannel (s.channel v) g mark k .live with
      current := some g2, next := .empty, stepInForce := some k2, outputMark := some mark2
      placementPoint := some (firstPosition g2 mark2 - 64) } : Channel) = advanced := by
    simp only [addedChannel, true_and, if_true]
    rfl
  have hall : added.setChannel v advanced = s.setChannel v advanced := State.setChannel_setChannel _ _ _ _
  rw [advanceCycle_promotes (s := added) (g2 := g2) (mark2 := mark2) (by rw [hadded]; exact hnext)
    (by rw [hadded]; exact hk) (by rw [hadded]; exact hm) (by rw [hvoice]; exact hk2) hmark2 hfirst hpoint, hadded, hmoved,
    hall] at hdone
  have hchannel : (s.setChannel v advanced).channel v = advanced := State.channel_setChannel_same _ _ _
  have hempty : ((s.setChannel v advanced).channel v).next = .empty := by rw [hchannel]
  have hcurrent : ((s.setChannel v advanced).channel v).current = some g2 := by rw [hchannel]
  have hchoice : chooseMark (s.setChannel v advanced).marks (s.setChannel v advanced).clock
      (((s.setChannel v advanced).channel v).outputMark.getD 0 - 12288) = choice := by rw [hchannel]; rfl
  refine ⟨fun hnone => ?_, fun m hsome hpos => ?_, fun m hsome hpos hmerges => ?_⟩
  · rw [chooseSource_of_none (hchoice.trans hnone)] at hdone
    exact exec_placeCompletion_from h hr hdone
  · rw [chooseSource_of_some hempty (hchoice.trans hsome), if_pos ⟨g2, hcurrent, hpos.symm⟩, hcurrent, hchannel,
      State.setChannel_setChannel, chosenRegister, if_pos hpos.symm] at hdone
    exact exec_placeCompletion_from h hr hdone
  · have hother : ¬ ∃ g', ((s.setChannel v advanced).channel v).current = some g' ∧ g'.mark.pos = m.pos := by
      rintro ⟨g', hg', hp⟩
      rw [hcurrent] at hg'
      cases hg'
      exact hpos hp.symm
    rw [chooseSource_of_some hempty (hchoice.trans hsome), if_neg hother, hchannel, State.setChannel_setChannel] at hdone
    let asking : State := s.setChannel v { advanced with next := .fetching m }
    obtain ⟨b, hb, -, hbusy⟩ := asking.request_from (.fetch v none m)
    have hjoins : asking.requestFetch v m = { asking with arbiter := b } :=
      (requestFetch_joins (s := asking) hmerges).trans hb
    have hlist : b.list = s.arbiter.list ++ [.fetch v none m] := by
      have hrunning : asking.arbiter.running ≠ none := by
        show s.arbiter.running ≠ none
        rw [hr]
        nofun
      rw [hbusy hrunning]
      rfl
    rw [hjoins] at hdone
    obtain ⟨b', hgrant, hexec⟩ := exec_placeCompletion_from h hr hdone
    exact ⟨b', hlist ▸ hgrant, hexec⟩

/-- Settles O33: each clause from the advance that the completion starts, or from the fate that starts none. -/
theorem placeCompletionAdvancesTheCycle : Obligations.PlaceCompletionAdvancesTheCycle :=
  ⟨readyGrainIsPromotedAtTheCompletion, promotionWithoutAReadyGrainRepeats, withdrawnPlaceChangesNothing,
    overtakenPlaceAddsItsGrain⟩

/-! ### Late grains (R142) -/

theorem dropRunning_of_late {f : Fate} (hr : s.arbiter.running = some { job := .place v g mark, fate := f })
    (hf : f = .live ∨ f = .addsOnly) (hdue : 0 ≤ (s.clock - firstPosition g mark).toInt) (hdrop : s.counters.drop ≤ 65535) :
    s.dropRunning v = { s with
      arbiter := { s.arbiter with running := some { job := .place v g mark, fate := f.afterDrop } }
      counters := { s.counters with drop := min 65535 (s.counters.drop + 1) } } := by
  have hlate : Running.overdue s.clock v { job := .place v g mark, fate := f } = true := by
    simp only [Running.overdue, place_overdue hdue, Bool.true_and, Bool.or_eq_true, decide_eq_true_eq]
    exact hf
  simp only [State.dropRunning, hr, hlate, if_true]
  exact bump_drop (s := { s with
    arbiter := { s.arbiter with running := some { job := .place v g mark, fate := f.afterDrop } } }) hdrop

theorem exec_grainDrop {s : State} (hreset : s.resetN = true) (ho : Owed.grainDrop v ∈ s.owed) :
    exec (.grainDrop v) s = .next (State.dropGrain v { s with owed := s.owed.erase (.grainDrop v) }) :=
  takeOwed_performs hreset ho

/-- Settles O35: the running PLACE is marked, the waiting one is removed and the cycle advances. -/
theorem lateGrainIsDropped : Obligations.LateGrainIsDropped := by
  intro s v g mark hreset ho hdue hdrop hrepeats
  let s1 : State := { s with owed := s.owed.erase (.grainDrop v) }
  have hexec : exec (.grainDrop v) s = .next ((s1.dropRunning v).dropWaiting v) := exec_grainDrop hreset ho
  refine ⟨fun hr hnone => ?_, fun hr hnone => ?_, ?_⟩
  · rw [hexec, dropRunning_of_late (s := s1) hr (.inl rfl) hdue hdrop]
    exact congrArg Host.Outcome.next (dropWaiting_of_none hnone)
  · rw [hexec, dropRunning_of_late (s := s1) hr (.inr rfl) hdue hdrop]
    exact congrArg Host.Outcome.next (dropWaiting_of_none hnone)
  · intro m mark2 k k2 hlist hother hrun hcur hnext hk hm hk2 hmark2 hfirst hpoint
    obtain ⟨n, -, hdropped⟩ := dropWaiting_advances (s := s1) hlist hdue hdrop hrun
    rw [hexec, dropRunning_of_other (s := s1) hother, hdropped]
    exact congrArg Host.Outcome.next
      (advanceCycle_repeats (m := m) hcur hnext hk hm hk2 hmark2 hfirst hpoint hrepeats)

end

/-! ### Due placement points (R137, R141) -/

section
variable {v : Voice} {s : State}

theorem exec_placementPointDue {p : Pos} (hreset : s.resetN = true) (ho : Owed.placementPointDue v ∈ s.owed)
    (hp : (s.channel v).placementPoint = some p) (hdue : 0 ≤ (s.clock - p).toInt) :
    ∃ n, 32767 ≤ n ∧ exec (.placementPointDue v) s =
      .next (State.reachPlacementPoint v (n + 1) { s with owed := s.owed.erase (.placementPointDue v) }) := by
  let s1 : State := { s with owed := s.owed.erase (.placementPointDue v) }
  obtain ⟨n, hn, hfuel⟩ := cycleFuel_enough v s1
  refine ⟨n, hn, (takeOwed_performs hreset ho).trans (congrArg Host.Outcome.next ?_)⟩
  have hp1 : (s1.channel v).placementPoint = some p := hp
  show s1.placementPointDue v = _
  rw [State.placementPointDue, hp1]
  show (if isDue s1.clock p then s1.reachPlacementPoint v (s1.cycleFuel v) else s1) = _
  rw [if_pos (isDue_iff.2 hdue), hfuel]

theorem reachPlacementPoint_of_current {n : Nat} {g : Grain} {mark : Pos16} (hcur : (s.channel v).current = some g)
    (hm : (s.channel v).outputMark = some mark) : s.reachPlacementPoint v (n + 1) =
      State.request (.place v g mark) (s.setChannel v { s.channel v with placementPoint := none }) := by
  simp only [State.reachPlacementPoint, hcur, State.requestPlace, hm, Option.getD_some]

theorem reachPlacementPoint_of_ready {n : Nat} {g : Grain} {mark : Pos16} (hcur : (s.channel v).current = none)
    (hnext : (s.channel v).next = .ready g) (hm : (s.channel v).outputMark = some mark) :
    let s1 := s.setChannel v { s.channel v with current := some g, next := .empty, placementPoint := none }
    s.reachPlacementPoint v (n + 1) =
      if 0 ≤ (s.clock - firstPosition g mark).toInt then (s1.bump .drop).advanceCycle v (s.cycleFuel v) g
      else s1.request (.place v g mark) := by
  simp only [State.reachPlacementPoint, hcur, hnext, State.requestPlace, hm, Option.getD_some, isDue_iff,
    State.channel_setChannel_same, State.setChannel_setChannel]

theorem request_setChannel_from (j : Job) (c : Channel) (s : State) :
    ∃ b, State.request j (s.setChannel v c) = State.setChannel v c { s with arbiter := b } ∧
      (s.arbiter.running = none → b.GrantedFrom (s.arbiter.list ++ [j])) ∧
      (s.arbiter.running ≠ none → b = { s.arbiter with list := s.arbiter.list ++ [j] }) := by
  obtain ⟨b, hb, hfree, hbusy⟩ := (s.setChannel v c).request_from j
  exact ⟨b, hb, hfree, hbusy⟩

/-- The state after a silent placement, before the choice of a source (R141). -/
def silentChannelMoved (s : State) (v : Voice) (mark2 : Pos16) : Channel := { s.channel v with
  stepInForce := if (s.voice v).postedStep.isSome then (s.voice v).postedStep else (s.channel v).stepInForce
  outputMark := some mark2
  placementPoint := some (placementBefore mark2 (s.channel v).next.period) }

theorem silentPlacement_eq {mark : Pos16} (hm : (s.channel v).outputMark = some mark) :
    s.silentPlacement v = (s.setChannel v (silentChannelMoved s v (mark + 2048))).chooseSource v := by
  simp only [State.silentPlacement, takePostedStep_eq, State.channel_setChannel_same, hm, Option.getD_some,
    State.setChannel_setChannel]
  rfl

theorem reachPlacementPoint_of_silent {n : Nat} {mark : Pos16} (hcur : (s.channel v).current = none)
    (hnext : ∀ g, (s.channel v).next ≠ .ready g) (hm : (s.channel v).outputMark = some mark) :
    let s1 := (s.setChannel v (silentChannelMoved s v (mark + 2048))).chooseSource v
    s.reachPlacementPoint v (n + 1) =
      if 0 ≤ (s.clock - placementBefore (mark + 2048) (s.channel v).next.period).toInt then s1.reachPlacementPoint v n
      else s1 := by
  intro s1
  have hpoint : (s1.channel v).placementPoint = some (placementBefore (mark + 2048) (s.channel v).next.period) := by
    obtain ⟨next, b, hleaves⟩ := chooseSource_leaves v (s.setChannel v (silentChannelMoved s v (mark + 2048)))
    show (((s.setChannel v (silentChannelMoved s v (mark + 2048))).chooseSource v).channel v).placementPoint = _
    rw [hleaves]
    simp [State.channel, silentChannelMoved]
  have hclock : s1.clock = s.clock := chooseSource_clock v _
  have hagain : s.reachPlacementPoint v (n + 1) = s1.silentAgain v (State.reachPlacementPoint v n) := by
    simp only [State.reachPlacementPoint, hcur, silentPlacement_eq hm]
    split
    · next g hg => exact absurd hg (hnext g)
    · rfl
    · rfl
  rw [hagain, State.silentAgain, hpoint]
  simp only [isDue_iff, hclock]

theorem duePlacementPointAsksForThePlace : Clause.DuePlacementPointAsksForThePlace := by
  intro v s p mark hreset ho hp hdue hm
  obtain ⟨n, -, hexec⟩ := exec_placementPointDue hreset ho hp hdue
  let s1 : State := { s with owed := s.owed.erase (.placementPointDue v) }
  refine ⟨fun g hcur => ?_, fun g hcur hnext hahead => ?_, fun hcur hnext hnone hahead => ?_⟩
  · obtain ⟨b, hb, hgrant⟩ := request_setChannel_from (v := v) (.place v g mark)
      { s.channel v with placementPoint := none } s1
    exact ⟨b, by rw [hexec, reachPlacementPoint_of_current (s := s1) hcur hm]; exact congrArg Host.Outcome.next hb, hgrant⟩
  · obtain ⟨b, hb, hgrant⟩ := request_setChannel_from (v := v) (.place v g mark)
      { s.channel v with current := some g, next := .empty, placementPoint := none } s1
    refine ⟨b, ?_, hgrant⟩
    rw [hexec, reachPlacementPoint_of_ready (s := s1) hcur hnext hm, if_neg (not_le.2 hahead)]
    exact congrArg Host.Outcome.next hb
  · have hmoved : silentChannelMoved s1 v (mark + 2048) = { s.channel v with
        stepInForce := if (s.voice v).postedStep.isSome then (s.voice v).postedStep else (s.channel v).stepInForce
        outputMark := some (mark + 2048)
        placementPoint := some (((mark + 2048 - 2048) >>> 4).setWidth 24 - 64) } := by
      show ({ s.channel v with
        stepInForce := _, outputMark := _
        placementPoint := some (placementBefore (mark + 2048) (s.channel v).next.period) } : Channel) = _
      rw [hnext]
      rfl
    have hnot : ∀ g, (s1.channel v).next ≠ .ready g := fun g => by
      show (s.channel v).next ≠ _
      rw [hnext]
      nofun
    have hperiod : placementBefore (mark + 2048) (s1.channel v).next.period =
        ((mark + 2048 - 2048) >>> 4).setWidth 24 - 64 := by
      show placementBefore (mark + 2048) (s.channel v).next.period = _
      rw [hnext]
      rfl
    rw [hexec, reachPlacementPoint_of_silent (s := s1) hcur hnot hm, hperiod, if_neg (not_le.2 hahead), hmoved,
      chooseSource_of_none]
    rw [State.channel_setChannel_same]
    exact hnone

theorem silentPlacementsRunUntilAPointAhead : Clause.SilentPlacementsRunUntilAPointAhead := by
  intro v n s mark hm hcur hnot mark2 period point moved
  have hperiod : (s.channel v).next.period = period := by
    show _ = (match (s.channel v).next with | .fetching m => m.period | _ => 2048)
    cases h : (s.channel v).next with
    | empty => rfl
    | fetching m => rfl
    | ready g => exact absurd h (hnot g)
  have hmoved : silentChannelMoved s v (mark + 2048) = moved := by
    rw [silentChannelMoved, hperiod]
    rfl
  have hchannel : (s.setChannel v moved).channel v = moved := State.channel_setChannel_same _ _ _
  have hnextMoved : moved.next = (s.channel v).next := rfl
  have hreach := reachPlacementPoint_of_silent (n := n) hcur hnot hm
  rw [hmoved, hperiod] at hreach
  refine ⟨(s.setChannel v moved).chooseSource v, hreach, fun m hnext => ?_, fun hnext hnone => ?_, fun m hnext hsome => ?_⟩
  · refine chooseSource_of_held ?_
    rw [hchannel, hnextMoved, hnext]
    nofun
  · refine chooseSource_of_none ?_
    rw [hchannel]
    exact hnone
  · rw [chooseSource_of_some (m := m) (by rw [hchannel, hnextMoved, hnext]) (by rw [hchannel]; exact hsome), hchannel,
      if_neg, State.setChannel_setChannel]
    rintro ⟨g, hg, -⟩
    have hnone : moved.current = none := hcur
    rw [hnone] at hg
    cases hg

theorem placementPointIsReachedByItsCommand : Clause.PlacementPointIsReachedByItsCommand := by
  intro v s p hreset ho hp hdue s1
  obtain ⟨n, hn, hexec⟩ := exec_placementPointDue hreset ho hp hdue
  refine ⟨⟨n, hn, hexec⟩, fun g mark hcur hnext hm hlate hdrop => ?_⟩
  obtain ⟨n', hn', hfuel⟩ := cycleFuel_enough v s1
  refine ⟨n', hn', ?_⟩
  let promoted : State := s1.setChannel v { s.channel v with current := some g, next := .empty, placementPoint := none }
  have hbump : promoted.bump .drop =
      { promoted with counters := { s.counters with drop := min 65535 (s.counters.drop + 1) } } := bump_drop hdrop
  rw [hexec, reachPlacementPoint_of_ready (s := s1) hcur hnext hm, if_pos hlate, hfuel]
  exact congrArg (fun t => Host.Outcome.next (State.advanceCycle v (n' + 1) g t)) hbump

/-- Settles O31: the branches of a due placement point. -/
theorem duePlacementPointsPlaceOrPassInSilence : Obligations.DuePlacementPointsPlaceOrPassInSilence :=
  ⟨duePlacementPointAsksForThePlace, silentPlacementsRunUntilAPointAhead, placementPointIsReachedByItsCommand⟩

end

end Sys2Proof.GrainCycle

/-! PROOF. How a FETCH ends, and the two ends of a ramp (sections 8.2 to 8.4 and 9.3). -/

namespace Sys2Proof.JobEnds

open Sys2Proof.Machine Sys2Proof.TrackerEvents Sys2Proof.AllocatingDecision

/-! ### FETCH completions (R135, R136) -/

section
variable {s : State} {c : Channel} {g : Grain}

theorem takeGrain_idem (c : Channel) (g : Grain) (h : c.takeGrain g = { c with next := .ready g }) :
    (c.takeGrain g).takeGrain g = { c with next := .ready g } := by
  rw [h]
  rfl

theorem fetchDone_eq (o : Voice) (q : Option Voice) (m : Mark) (s : State) :
    s.fetchDone o q m = { s with channels := (s.fetchDone o q m).channels } := by
  cases q <;> rfl

theorem fetchDone_channel (o v : Voice) (q : Option Voice) (m : Mark) (s : State) :
    ((v ≠ o ∧ some v ≠ q) → (s.fetchDone o q m).channel v = s.channel v) ∧
    ((v = o ∨ some v = q) → ∀ m', (s.channel v).next = .fetching m' → m'.pos = m.pos →
      (s.fetchDone o q m).channel v = { s.channel v with next := .ready (readGrain s.ring m) }) := by
  have htakes : ∀ m', (s.channel v).next = .fetching m' → m'.pos = m.pos →
      (s.channel v).takeGrain (readGrain s.ring m) = { s.channel v with next := .ready (readGrain s.ring m) } :=
    fun m' hm hp => by simp only [Channel.takeGrain, hm, readGrain, hp, if_true]
  let s1 : State := s.setChannel o ((s.channel o).takeGrain (readGrain s.ring m))
  have hone : v ≠ o → s1.channel v = s.channel v := fun h => by
    rw [State.channel_setChannel, if_neg h]
  have hown : v = o → s1.channel v = (s.channel v).takeGrain (readGrain s.ring m) := fun h => by
    rw [h, State.channel_setChannel_same]
  cases q with
  | none =>
    have hdone : s.fetchDone o none m = s1 := rfl
    rw [hdone]
    exact ⟨fun h => hone h.1, fun h m' hm hp => (hown (h.resolve_right nofun)).trans (htakes m' hm hp)⟩
  | some p =>
    have hdone : s.fetchDone o (some p) m = s1.setChannel p ((s1.channel p).takeGrain (readGrain s.ring m)) := rfl
    rw [hdone]
    refine ⟨fun ⟨ho, hp⟩ => ?_, fun h m' hm hp => ?_⟩
    · rw [State.channel_setChannel, if_neg fun he => hp (congrArg some he), hone ho]
    · by_cases hvp : v = p
      · subst hvp
        rw [State.channel_setChannel_same]
        by_cases hvo : v = o
        · rw [hown hvo]
          exact takeGrain_idem _ _ (htakes m' hm hp)
        · rw [hone hvo]
          exact htakes m' hm hp
      · have hvo : v = o := h.resolve_right fun he => hvp (Option.some.inj he)
        rw [State.channel_setChannel, if_neg hvp, hown hvo]
        exact htakes m' hm hp

theorem fetchCompletionFillsTheNextRegister : Clause.FetchCompletionFillsTheNextRegister := by
  intro s o q m f h hr
  let t : State := if f = .live then s.fetchDone o q m else s
  have hexec : exec .fetchCompletion s = .next t.finishJob := by
    rw [show exec .fetchCompletion s = .next s.completeFetch from whenReleased_settle h State.completeFetch,
      State.completeFetch, hr]
  have ht : t = { s with channels := t.channels } := by
    by_cases hf : f = .live
    · simp only [t, if_pos hf]
      exact fetchDone_eq o q m s
    · simp only [t, if_neg hf]
  obtain ⟨b, hb, hgrant⟩ := t.finishJob_from
  have hlist : t.arbiter.list = s.arbiter.list := by rw [ht]
  refine ⟨b, { t with arbiter := b }, by rw [hexec, hb], hlist ▸ hgrant, ?_, fun hf => ?_, fun hf v => ?_⟩
  · rw [ht]
  · show t.channels = s.channels
    simp only [t, if_neg hf]
  · have hchannel := fetchDone_channel o v q m s
    have hlive : t = s.fetchDone o q m := if_pos hf
    rw [hlive]
    exact ⟨hchannel.2, hchannel.1⟩

end

/-! ### Withdrawn FETCHes (R135, R136, R153) -/

section
variable {v : Voice} {s : State} {m : Mark}

/-- Each voice that the withdrawn jobs served, and v, gives up what it awaits. -/
theorem emptyServed_eq (v : Voice) (jobs : List Job) (m : Mark) (s : State) : s.emptyServed v jobs m = { s with
    channels := Quad.ofFn fun w =>
      if w = v ∨ jobs.any (Job.isFetchFor w) then (s.channel w).dropFetch m.pos else s.channel w } := by
  rw [State.emptyServed, State.forVoices_eq _ s s.voice fun w =>
    if w = v ∨ jobs.any (Job.isFetchFor w) then (s.channel w).dropFetch m.pos else s.channel w]
  · rfl
  · intro w vs cs hvs hcs
    rw [← hvs, ← hcs, Quad.set_get]
    split
    · rfl
    · rw [Quad.set_get]

/-- The FETCHes that a withdrawal takes: waiting, and running unless it was discarded before. -/
def goneFetches (v : Voice) (m : Mark) (a : Arbiter) : List Job :=
  a.list.filter (Job.fetches v m) ++
    (a.running.toList.filter fun r => r.job.fetches v m && decide (r.fate ≠ .discarded)).map Running.job

/-- The arbiter after a withdrawal. -/
def withoutFetches (v : Voice) (m : Mark) (a : Arbiter) : Arbiter :=
  { list := a.list.filter fun j => !j.fetches v m
    running := a.running.map fun r => if r.job.fetches v m then { r with fate := .discarded } else r }

theorem exec_fetchWithdrawal (hreset : s.resetN = true) (ho : Owed.fetchWithdrawal v ∈ s.owed)
    (hnext : (s.channel v).next = .fetching m) (hlost : 4096 ≤ (s.clock - 1 - oldestSample m).toInt) :
    exec (.fetchWithdrawal v) s = .next { s with
      owed := s.owed.erase (.fetchWithdrawal v)
      arbiter := withoutFetches v m s.arbiter
      channels := Quad.ofFn fun w =>
        if w = v ∨ (goneFetches v m s.arbiter).any (Job.isFetchFor w) then (s.channel w).dropFetch m.pos
        else s.channel w } := by
  let s1 : State := { s with owed := s.owed.erase (.fetchWithdrawal v) }
  have hover : grainOverwritten s1.clock m = true := decide_eq_true hlost
  have hnext1 : (s1.channel v).next = .fetching m := hnext
  refine (takeOwed_performs hreset ho).trans (congrArg Host.Outcome.next ?_)
  show s1.withdrawOverwritten v = _
  simp only [State.withdrawOverwritten, hnext1, hover, if_true]
  exact emptyServed_eq v (goneFetches v m s.arbiter) m { s1 with arbiter := withoutFetches v m s.arbiter }

theorem dropFetch_of_awaited {c : Channel} {m' : Mark} (h : c.next = .fetching m') (hp : m'.pos = m.pos) :
    c.dropFetch m.pos = { c with next := .empty } := by
  simp only [Channel.dropFetch, h, hp, if_true]

/-- A waiting FETCH is withdrawn. -/
theorem withdrawn_waiting {a : Arbiter} {j : Job} (hlist : a.list.filter (Job.fetches v m) = [j])
    (hother : ∀ r, a.running = some r → r.job.fetches v m = false) : goneFetches v m a = [j] ∧
      withoutFetches v m a = { a with list := a.list.filter fun j => !j.fetches v m } := by
  unfold goneFetches withoutFetches
  rw [hlist]
  cases hr : a.running with
  | none => exact ⟨rfl, rfl⟩
  | some r => simp [hother r hr]

/-- The running FETCH is withdrawn. -/
theorem withdrawn_running {a : Arbiter} {j : Job} (hlist : a.list.filter (Job.fetches v m) = [])
    (hr : a.running = some { job := j, fate := .live }) (hj : j.fetches v m = true) : goneFetches v m a = [j] ∧
      withoutFetches v m a = { a with running := some { job := j, fate := .discarded } } := by
  have hkeep : a.list.filter (fun j => !j.fetches v m) = a.list :=
    List.filter_eq_self.2 fun i hi => by
      rw [Bool.not_eq_true']
      exact Bool.not_eq_true _ ▸ List.filter_eq_nil_iff.1 hlist i hi
  unfold goneFetches withoutFetches
  rw [hlist, hr, hkeep]
  simp [hj]

/-- The withdrawal of a FETCH of voice v alone empties its register alone. -/
theorem emptied_alone (hnext : (s.channel v).next = .fetching m) :
    (Quad.ofFn fun w => if w = v ∨ [Job.fetch v none m].any (Job.isFetchFor w) then (s.channel w).dropFetch m.pos
      else s.channel w) = s.channels.set v { s.channel v with next := .empty } := by
  refine Quad.ext_get fun w => ?_
  rw [Quad.get_ofFn, Quad.get_set]
  by_cases hw : w = v
  · subst hw
    rw [if_pos (.inl rfl), if_pos rfl, dropFetch_of_awaited hnext rfl]
  · have hother : ¬ v = w := fun h => hw h.symm
    simp only [hw, List.any_cons, List.any_nil, Job.isFetchFor, hother, if_false, decide_false, reduceCtorEq,
      Bool.or_self, Bool.false_eq_true, or_self]
    rfl

/-- The withdrawal of a merged FETCH empties the registers of both its voices. -/
theorem emptied_pair {o q : Voice} {m' : Mark} (hv : v = o ∨ v = q) (hnext : (s.channel v).next = .fetching m)
    (hpos : m'.pos = m.pos) (hothers : ∀ w, (w = o ∨ w = q) → w ≠ v → (s.channel w).next = .fetching m') (w : Voice) :
    (if w = v ∨ [Job.fetch o (some q) m].any (Job.isFetchFor w) then (s.channel w).dropFetch m.pos else s.channel w) =
      if w = o ∨ w = q then { s.channel w with next := .empty } else s.channel w := by
  have hserved : (w = v ∨ [Job.fetch o (some q) m].any (Job.isFetchFor w) = true) ↔ (w = o ∨ w = q) := by
    simp only [List.any_cons, List.any_nil, Job.isFetchFor, Bool.or_false, Bool.or_eq_true, decide_eq_true_eq,
      Option.some.injEq]
    constructor
    · rintro (rfl | rfl | rfl)
      · exact hv
      · exact .inl rfl
      · exact .inr rfl
    · rintro (rfl | rfl)
      · exact .inr (.inl rfl)
      · exact .inr (.inr rfl)
  by_cases hw : w = o ∨ w = q
  · rw [if_pos (hserved.2 hw), if_pos hw]
    by_cases hwv : w = v
    · subst hwv
      exact dropFetch_of_awaited hnext rfl
    · exact dropFetch_of_awaited (hothers w hw hwv) hpos
  · rw [if_neg (mt hserved.1 hw), if_neg hw]

theorem overwrittenFetchIsWithdrawn : Clause.OverwrittenFetchIsWithdrawn := by
  intro v s m hreset ho hnext hlost
  have hexec := exec_fetchWithdrawal hreset ho hnext hlost
  refine ⟨fun hlist hother => ?_, fun hlist hr => ?_, fun o q m' hv _ hlist hother hpos hothers => ?_,
    fun o q m' hv _ hlist hr hpos hothers => ?_⟩
  · obtain ⟨hgone, hleft⟩ := withdrawn_waiting hlist hother
    rw [hexec, hgone, hleft, emptied_alone hnext]
    rfl
  · obtain ⟨hgone, hleft⟩ := withdrawn_running hlist hr (fetch_fetches_iff.2 ⟨.inl rfl, rfl⟩)
    rw [hexec, hgone, hleft, emptied_alone hnext]
    rfl
  · obtain ⟨hgone, hleft⟩ := withdrawn_waiting hlist hother
    rw [hgone, hleft] at hexec
    exact ⟨_, hexec, rfl, fun w => (Quad.get_ofFn _ w).trans (emptied_pair hv hnext hpos hothers w)⟩
  · have hserves : (Job.fetch o (some q) m).fetches v m = true :=
      fetch_fetches_iff.2 ⟨hv.imp Eq.symm fun h => congrArg some h.symm, rfl⟩
    obtain ⟨hgone, hleft⟩ := withdrawn_running hlist hr hserves
    rw [hgone, hleft] at hexec
    exact ⟨_, hexec, rfl, fun w => (Quad.get_ofFn _ w).trans (emptied_pair hv hnext hpos hothers w)⟩

/-- Settles O32: a FETCH's completion at each voice, and the withdrawal by where the FETCH stands. -/
theorem fetchFillsItsRegisterOrIsWithdrawn : Obligations.FetchFillsItsRegisterOrIsWithdrawn :=
  ⟨fetchCompletionFillsTheNextRegister, overwrittenFetchIsWithdrawn⟩

end

/-! ### Ramp ends (R139, R144) -/

theorem fullRampSounds : Clause.FullRampSounds := by
  intro v s hreset ho hstate hramp
  let s1 : State := { s with owed := s.owed.erase (.enteringRampFull v) }
  refine (takeOwed_performs hreset ho).trans (congrArg Host.Outcome.next ?_)
  have hstate1 : (s1.channel v).state = .entering := hstate
  show s1.rampFull v = _
  simp only [State.rampFull, hstate1]
  exact if_pos hramp

section
variable {v : Voice}

theorem stopped_eq (off : Bool) (c : Channel) : c.stopped off = silentChannel (if off then .off else .parked) := by
  cases off <;> rfl

/-- The FETCHes that serve voice v: its own, and the merged ones of its pair (R136). -/
theorem isFetchFor_cases {i : Job} (h : i.isFetchFor v = true) : (∃ m, i = .fetch v none m) ∨
    (∃ q m, i = .fetch v (some q) m) ∨ ∃ q m, q ≠ v ∧ i = .fetch q (some v) m := by
  cases i with
  | place | analysis => cases h
  | fetch o p m =>
    simp only [Job.isFetchFor, Bool.or_eq_true, decide_eq_true_eq] at h
    by_cases ho : o = v
    · subst ho
      cases p with
      | none => exact .inl ⟨m, rfl⟩
      | some q => exact .inr (.inl ⟨q, m, rfl⟩)
    · have hp := h.resolve_left ho
      exact .inr (.inr ⟨o, m, ho, hp ▸ rfl⟩)

theorem withoutVoice_of_other {i : Job} (h : i.isFetchFor v = false) : i.withoutVoice v = some i := by
  cases i with
  | place | analysis => rfl
  | fetch o p m =>
    simp only [Job.isFetchFor, Bool.or_eq_false_iff, decide_eq_false_iff_not] at h
    simp only [Job.withoutVoice, if_neg h.1, if_neg h.2]

theorem withoutVoice_alone (m : Mark) : (Job.fetch v none m).withoutVoice v = none := by
  simp [Job.withoutVoice]

theorem withoutVoice_owner (q : Voice) (m : Mark) :
    (Job.fetch v (some q) m).withoutVoice v = some (.fetch q none m) := by
  simp [Job.withoutVoice]

theorem withoutVoice_partner {q : Voice} (h : q ≠ v) (m : Mark) :
    (Job.fetch q (some v) m).withoutVoice v = some (.fetch q none m) := by
  simp [Job.withoutVoice, h]

/-- What voice v's withdrawal leaves of a job: one that does not serve it is kept, a merged FETCH stays for the other
voice (R136, R150). -/
theorem withoutVoice_eq_some_iff {i j : Job} : i.withoutVoice v = some j ↔
    (i.isFetchFor v = false ∧ i = j) ∨
      ∃ q m, j = .fetch q none m ∧ (i = .fetch v (some q) m ∨ (q ≠ v ∧ i = .fetch q (some v) m)) := by
  constructor
  · intro h
    cases hi : i.isFetchFor v with
    | false =>
      rw [withoutVoice_of_other hi] at h
      exact .inl ⟨rfl, Option.some.inj h⟩
    | true =>
      rcases isFetchFor_cases hi with ⟨m, rfl⟩ | ⟨q, m, rfl⟩ | ⟨q, m, hq, rfl⟩
      · rw [withoutVoice_alone] at h
        cases h
      · rw [withoutVoice_owner] at h
        exact .inr ⟨q, m, (Option.some.inj h).symm, .inl rfl⟩
      · rw [withoutVoice_partner hq] at h
        exact .inr ⟨q, m, (Option.some.inj h).symm, .inr ⟨hq, rfl⟩⟩
  · rintro (⟨hi, rfl⟩ | ⟨q, m, rfl, rfl | ⟨hq, rfl⟩⟩)
    · exact withoutVoice_of_other hi
    · exact withoutVoice_owner q m
    · exact withoutVoice_partner hq m

/-- The arbiter after voice v has given up its jobs (R144). -/
def stoppedArbiter (v : Voice) (a : Arbiter) : Arbiter := (a.withdrawPlace v).withdrawFetch v

theorem mem_stoppedArbiter_iff {a : Arbiter} {j : Job} :
    j ∈ (stoppedArbiter v a).list ↔ ∃ i ∈ a.list, i.isPlaceOf v = false ∧ i.withoutVoice v = some j := by
  simp only [stoppedArbiter, Arbiter.withdrawFetch, Arbiter.withdrawPlace, List.mem_filterMap, List.mem_filter,
    Bool.not_eq_true', and_assoc]

theorem stoppedArbiter_running_place {a : Arbiter} {r : Running} (hr : a.running = some r)
    (hplace : r.job.isPlaceOf v = true) : (stoppedArbiter v a).running = some { r with fate := .discarded } := by
  have hkeeps : r.job.withoutVoice v = some r.job := by
    refine withoutVoice_of_other ?_
    cases hj : r.job with
    | place | analysis => rfl
    | fetch =>
      rw [hj] at hplace
      cases hplace
  simp only [stoppedArbiter, Arbiter.withdrawFetch, Arbiter.withdrawPlace, hr, Option.map_some, hplace, if_true, hkeeps]

theorem stoppedArbiter_running {a : Arbiter} {r : Running} (hr : a.running = some r)
    (hplace : r.job.isPlaceOf v = false) : (stoppedArbiter v a).running = some (match r.job.withoutVoice v with
      | some j => { r with job := j }
      | none => { r with fate := .discarded }) := by
  simp only [stoppedArbiter, Arbiter.withdrawFetch, Arbiter.withdrawPlace, hr, Option.map_some, hplace,
    Bool.false_eq_true, if_false] <;> rfl

theorem exec_cycleStop {s : State} (hreset : s.resetN = true) (ho : Owed.cycleStop v ∈ s.owed)
    (hstate : (s.channel v).state = .leaving) (hramp : (s.channel v).ramp = 0) :
    exec (.cycleStop v) s = .next (State.setChannel v (silentChannel (if (s.rule v).mode = .off then .off else .parked))
      { s with owed := s.owed.erase (.cycleStop v), arbiter := stoppedArbiter v s.arbiter }) := by
  let s1 : State := { s with owed := s.owed.erase (.cycleStop v) }
  have hstate1 : (s1.channel v).state = .leaving := hstate
  have hrest : (s.channel v).stopped (s.ruleOff v) =
      silentChannel (if (s.rule v).mode = .off then .off else .parked) := by
    simp only [stopped_eq, State.ruleOff, decide_eq_true_eq]
  refine (takeOwed_performs hreset ho).trans (congrArg Host.Outcome.next ?_)
  show s1.stopCycle v = _
  simp only [State.stopCycle, hstate1]
  rw [← hrest]
  exact if_pos hramp

theorem rampOutStopsTheCycle : Clause.RampOutStopsTheCycle := by
  intro v s hreset ho hstate hramp hpairs
  refine ⟨_, exec_cycleStop hreset ho hstate hramp, fun j hj => ?_, fun j hplace hfetch => ?_, fun r hr hown => ?_,
    fun q m f hmerged => ?_, fun r hr hplace hfetch => ?_, fun hnone => ?_⟩
  · obtain ⟨i, hi, hplace, hleft⟩ := mem_stoppedArbiter_iff.1 hj
    rcases withoutVoice_eq_some_iff.1 hleft with ⟨hfetch, rfl⟩ | ⟨q, m, rfl, hmerged⟩
    · exact ⟨hplace, hfetch⟩
    · have hq : q ≠ v := by
        rcases hmerged with rfl | ⟨hq, -⟩
        · exact fun he => hpairs _ _ _ hi he.symm
        · exact hq
      exact ⟨rfl, by simp [Job.isFetchFor, hq]⟩
  · rw [mem_stoppedArbiter_iff]
    constructor
    · rintro ⟨i, hi, -, hleft⟩
      rcases withoutVoice_eq_some_iff.1 hleft with ⟨-, rfl⟩ | ⟨q, m, rfl, rfl | ⟨-, rfl⟩⟩
      · exact .inl hi
      · exact .inr ⟨q, m, rfl, .inl hi⟩
      · exact .inr ⟨q, m, rfl, .inr hi⟩
    · rintro (hi | ⟨q, m, rfl, hi | hi⟩)
      · exact ⟨j, hi, hplace, withoutVoice_of_other hfetch⟩
      · exact ⟨_, hi, rfl, withoutVoice_owner q m⟩
      · have hq : q ≠ v := by
          rintro rfl
          simp [Job.isFetchFor] at hfetch
        exact ⟨_, hi, rfl, withoutVoice_partner hq m⟩
  · rcases hown with hplace | ⟨m, hm⟩
    · exact stoppedArbiter_running_place hr hplace
    · rw [stoppedArbiter_running hr (by rw [hm]; rfl), hm, withoutVoice_alone]
  · rcases hmerged with hr | ⟨hq, hr⟩
    · rw [stoppedArbiter_running hr rfl]
      simp only [withoutVoice_owner]
    · rw [stoppedArbiter_running hr rfl]
      simp only [withoutVoice_partner hq]
  · rw [stoppedArbiter_running hr hplace, withoutVoice_of_other hfetch]
  · simp only [stoppedArbiter, Arbiter.withdrawFetch, Arbiter.withdrawPlace, hnone, Option.map_none]

/-- Settles O36: the full ramp at once, the empty one by what the voice's withdrawal leaves of each job. -/
theorem rampEndsSoundOrStopTheVoice : Obligations.RampEndsSoundOrStopTheVoice :=
  ⟨fullRampSounds, rampOutStopsTheCycle⟩

end

end Sys2Proof.JobEnds

/-! PROOF. The receiver of the stage line (sections 10.1, 10.3, 10.5 to 10.7): levels, characters and frame
boundaries. -/

namespace Sys2Proof.Receiver

open Sys2Proof.Machine Sys2Proof.ScenesAndControls

/-! ### Levels (R159, R161, R163) -/

theorem startBitInReadyBeginsAFrame : Clause.StartBitInReadyBeginsAFrame := by
  intro s h hready
  refine (whenReleased_settle h State.takeFrameStart).trans (congrArg Host.Outcome.next ?_)
  rw [State.takeFrameStart, hready]
  rfl

theorem startBitRestartsTheIdleTime : Clause.StartBitRestartsTheIdleTime := by
  intro s h
  have hexec : exec .startBit s = .next s.takeStartBit := whenReleased_settle h State.takeStartBit
  refine ⟨fun hready hbreaking => ?_, fun hstays => ?_⟩
  · rw [hexec, State.takeStartBit]
    cases hr : s.line.receiver with
    | ready => exact absurd hr hready
    | breaking => exact absurd hr hbreaking
    | gapWait | receiving | skippingGroup | skippingError => rfl
  · rw [hexec, State.takeStartBit]
    rcases hstays with hr | hr <;> rw [hr]

theorem returnToMarkEndsTheSpace : Clause.ReturnToMarkEndsTheSpace := by
  intro s h hbad marked
  have hexec : exec .lineReturnToMark s = .next s.takeReturnToMark := whenReleased_settle h State.takeReturnToMark
  refine ⟨fun chars p ws hr => ?_, fun hr => ?_, fun hr => ?_, fun hr => ?_⟩
  · have hbump := bump_badFrame (s := { s with line := { marked with receiver := .skippingError } }) hbad
    simp only [hexec, State.takeReturnToMark, hr, ← hbump]
    rfl
  · simp only [hexec, State.takeReturnToMark, hr]
    rfl
  · rw [hexec, State.takeReturnToMark]
    rcases hr with hr | hr | ⟨id, hr⟩ <;> rw [hr] <;> rfl
  · simp only [hexec, State.takeReturnToMark, hr]

/-- Settles O39: the receiver's states in turn. -/
theorem lineLevelsMoveTheReceiver : Obligations.LineLevelsMoveTheReceiver :=
  ⟨startBitInReadyBeginsAFrame, startBitRestartsTheIdleTime, returnToMarkEndsTheSpace⟩

/-! ### Characters (R162, R165) -/

section
variable {straps : StrapPins} {chars : List Byte} {c h l : Byte}

theorem charTest_header : charTest straps [c] = if c.toNat / 16 = 5 then .skip (c.setWidth 4) else .keep := rfl

theorem charTest_length : charTest straps [h, c] = if 60 < c.toNat then .bad else .keep := rfl

theorem charTest_third : charTest straps [h, l, c] =
    if ((h.toNat / 16 = 2 ∨ h.toNat / 16 = 3) ∧ c.getLsbD straps.group.toNat = false) ∨
      (h.toNat / 16 = 4 ∧ c.toNat ≠ straps.id.toNat) then .skip (h.setWidth 4) else .keep := by
  show addressTest straps h c = _
  simp only [addressTest, headerKind, headerSender, kindScene, kindControl, kindQuery, maskAddresses]
  by_cases hkind : h.toNat / 16 = 2 ∨ h.toNat / 16 = 3
  · have hquery : h.toNat / 16 ≠ 4 := by omega
    by_cases hmask : c.getLsbD straps.group.toNat = true <;> simp [hkind, hquery, hmask]
  · by_cases hquery : h.toNat / 16 = 4
    · by_cases hid : c.toNat = straps.id.toNat <;> simp [hquery, hid]
    · simp [hkind, hquery]

theorem charTest_payload (h : 3 ≤ chars.length) :
    charTest straps (chars ++ [c]) = if 64 < chars.length + 1 then .bad else .keep := by
  obtain ⟨x, y, z, rest, rfl⟩ : ∃ x y z rest, chars = x :: y :: z :: rest := by
    match chars, h with
    | x :: y :: z :: rest, _ => exact ⟨x, y, z, rest, rfl⟩
  have hlen : (x :: y :: z :: rest ++ [c]).length = (x :: y :: z :: rest).length + 1 := by simp
  rw [← hlen]
  cases rest with
  | nil => rfl
  | cons w rest => rfl

end

/-- Settles O38: the receiver's state, then the character's place in the frame. -/
theorem characterJoinsTheFrameOrSkips : Obligations.CharacterJoinsTheFrameOrSkips := by
  intro c s h hbad marked bad skipped
  have hexec : exec (.characterReceived c) s = .next (s.takeChar c) := whenReleased_settle h (State.takeChar c)
  refine ⟨fun hnot => ?_, fun chars p ws hr => ?_⟩
  · rw [hexec, State.takeChar]
    cases hr : s.line.receiver with
    | receiving chars p ws => exact absurd hr (hnot chars p ws)
    | ready | gapWait | skippingGroup | skippingError | breaking => rfl
  · intro joined
    have happend : exec (.characterReceived c) s = .next (match charTest s.straps (chars ++ [c]) with
        | .bad => bad
        | .skip id => { s with line := { marked with receiver := .skippingGroup id } }
        | .keep => joined) := by
      have hbump := bump_badFrame (s := { s with line := { marked with receiver := .skippingError } }) hbad
      have hbad' : bad = State.bump .badFrame { s with line := { marked with receiver := .skippingError } } :=
        hbump.symm
      have happends : s.takeChar c = (s.setLine s.line.atMark).appendChar c chars p ws := by
        simp only [State.takeChar, hr]
      have hstraps : (s.setLine s.line.atMark).straps = s.straps := rfl
      rw [hexec, happends, State.appendChar, hbad', hstraps]
      cases charTest s.straps (chars ++ [c]) <;> rfl
    rw [happend]
    refine ⟨fun hnil => ?_, fun x hx => ?_, fun x l hx => ?_, fun hlong => ?_⟩
    · subst hnil
      rw [List.nil_append, charTest_header]
      by_cases hreport : c.toNat / 16 = 5
      · rw [if_pos hreport, if_pos hreport]
      · rw [if_neg hreport, if_neg hreport]
    · subst hx
      rw [List.cons_append, List.nil_append, charTest_length]
      by_cases hlong : 60 < c.toNat
      · rw [if_pos hlong, if_pos hlong]
      · rw [if_neg hlong, if_neg hlong]
    · subst hx
      rw [List.cons_append, List.cons_append, List.nil_append, charTest_third]
      by_cases hother : ((x.toNat / 16 = 2 ∨ x.toNat / 16 = 3) ∧ c.getLsbD s.straps.group.toNat = false) ∨
          (x.toNat / 16 = 4 ∧ c.toNat ≠ s.straps.id.toNat)
      · rw [if_pos hother, if_pos hother]
      · rw [if_neg hother, if_neg hother]
    · rw [charTest_payload hlong]
      by_cases hroom : chars.length < 64
      · rw [if_neg (by omega), if_pos hroom]
      · rw [if_pos (by omega), if_neg hroom]

/-! ### Frame boundaries (R161, R165 to R168) -/

section
variable {s : State}

theorem exec_frameBoundary (h : s.ready) : exec .frameBoundary s = .next (if s.line.mayIdle then s.endFrame else s) :=
  whenReleased_settle h State.takeBoundary

theorem mayIdle_skipping (hrx : s.line.rx ≠ .space) (hr : s.line.receiver = .gapWait ∨
    s.line.receiver = .skippingError ∨ ∃ id, s.line.receiver = .skippingGroup id) : s.line.mayIdle = true :=
  (LineControl.mayIdle_iff _).2 (.inr ⟨hrx, hr⟩)

theorem judge_of_bad {chars : List Byte} {p : Pos} {ws : Bool} (h : isWhole chars = false) :
    s.judge chars p ws = s.bump .badFrame := by
  cases chars with
  | nil => rfl
  | cons x rest =>
    rw [State.judge, h]
    rfl

theorem frameBoundaryReadiesTheReceiver : Clause.FrameBoundaryReadiesTheReceiver := by
  intro s h hbad readied
  have hexec := exec_frameBoundary h
  refine ⟨fun hrx => ?_, fun hr => ?_, fun chars p ws hrx hr => ?_, fun hrx hr => ?_, fun id hrx hr => ?_,
    fun chars p ws hrx hr hwhole => ?_⟩
  · have hspace : s.line.mayIdle = false := by rw [LineControl.mayIdle, hrx]
    rw [hexec, hspace]
    rfl
  · have hend : s.endFrame = s := by
      rcases hr with hr | hr <;> simp only [State.endFrame, hr]
    rw [hexec, hend, ite_self]
  · have hbusy : ¬ s.line.mayIdle = true := by
      rw [LineControl.mayIdle_iff, hr]
      simp [hrx]
    rw [hexec, if_neg hbusy]
  · have hidle : s.line.mayIdle = true := mayIdle_skipping hrx (by tauto)
    rw [hexec, if_pos hidle]
    rcases hr with hr | hr <;> simp only [State.endFrame, hr] <;> rfl
  · have hidle : s.line.mayIdle = true := mayIdle_skipping hrx (.inr (.inr ⟨id, hr⟩))
    rw [hexec, if_pos hidle]
    simp only [State.endFrame, hr]
    rfl
  · have hidle : s.line.mayIdle = true := (LineControl.mayIdle_iff _).2 (.inl hrx)
    have hend : s.endFrame = (s.setLine s.line.readyAtBoundary).judge chars p ws := by
      simp only [State.endFrame, hr]
    have hbump := bump_badFrame (s := s.setLine s.line.readyAtBoundary) hbad
    rw [hexec, if_pos hidle, hend, judge_of_bad hwhole, hbump]
    rfl

/-- A frame's judgement before it is routed (R166, R168). -/
def judgedFrame (s : State) (h : Byte) (ws : Bool) : State :=
  ((s.setLine s.line.readyAtBoundary).setLine
    { s.line.readyAtBoundary with lastSender := headerSender h }).clashTest (headerSender h) ws

theorem judgedFrame_eq {h : Byte} {ws : Bool} (hrx : s.line.rx = .mark) (hclash : s.counters.clash ≤ 65535) :
    judgedFrame s h ws = { s with
      line := { s.line with
        receiver := .ready, spaceRun := 0, idle := 12, lastSender := h.setWidth 4
        clash := s.line.clash || decide (h.setWidth 4 = s.straps.id ∧ ws = false) }
      counters := { s.counters with
        clash := if decide (h.setWidth 4 = s.straps.id ∧ ws = false) = true then min 65535 (s.counters.clash + 1)
          else s.counters.clash } } := by
  have hline : ({ s.line.readyAtBoundary with lastSender := headerSender h } : LineControl) = { s.line with
      receiver := .ready, spaceRun := 0, idle := 12, lastSender := h.setWidth 4 } := by
    rw [LineControl.readyAtBoundary, ← hrx]
    rfl
  unfold judgedFrame State.clashTest
  rw [hline]
  by_cases hown : h.setWidth 4 = s.straps.id ∧ ws = false
  · refine (if_pos hown).trans ?_
    rw [decide_eq_true hown, Bool.or_true, if_pos rfl, State.bump, Counters.bump, satSucc_eq_min]
    · rfl
    · exact hclash
  · refine (if_neg hown).trans ?_
    rw [decide_eq_false hown, Bool.or_false, if_neg Bool.false_ne_true]
    rfl

theorem payloadOf_whole {h l : Byte} {rest : List Byte} (hwhole : isWhole (h :: l :: rest) = true) :
    payloadOf (h :: l :: rest) = rest.take l.toNat := by
  simp only [isWhole, Bool.and_eq_true, decide_eq_true_eq] at hwhole
  rw [payloadOf, hwhole.1]
  rfl

/-- A whole frame's judgement ends in its routing (R166). -/
theorem exec_frameBoundary_whole {h l : Byte} {rest : List Byte} {p : Pos} {ws : Bool} (hready : s.ready)
    (hrx : s.line.rx = .mark) (hr : s.line.receiver = .receiving (h :: l :: rest) p ws)
    (hwhole : isWhole (h :: l :: rest) = true) : exec .frameBoundary s = .next
      (match routeFrame s.straps.id p h (rest.take l.toNat) with
        | .accepted a => { judgedFrame s h ws with owed := [.accept a] }
        | .malformed => (judgedFrame s h ws).bump .badFrame
        | .nothing => judgedFrame s h ws) := by
  have hidle : s.line.mayIdle = true := (LineControl.mayIdle_iff _).2 (.inl hrx)
  have hend : s.endFrame = (judgedFrame s h ws).route p h (rest.take l.toNat) := by
    simp only [State.endFrame, hr, State.judge, hwhole, if_true, payloadOf_whole hwhole]
    rfl
  have howed : s.owed = [] := hready.2
  have hjudged : (judgedFrame s h ws).owed = [] ∧ (judgedFrame s h ws).straps = s.straps := by
    unfold judgedFrame State.clashTest
    split
    · exact ⟨howed, rfl⟩
    · exact ⟨howed, rfl⟩
  obtain ⟨hnone, hstraps⟩ := hjudged
  rw [exec_frameBoundary hready, if_pos hidle, hend, ← hstraps]
  generalize judgedFrame s h ws = j at hnone ⊢
  rw [State.route]
  cases routeFrame j.straps.id p h (rest.take l.toNat) with
  | accepted a => simp only [hnone, List.nil_append]
  | malformed | nothing => rfl

theorem routeControl_malformed {payload : List Byte} (h : payload.length ≠ 2) : routeControl payload = .malformed := by
  unfold routeControl
  split
  · exact absurd rfl h
  · rfl

theorem routeQuery_malformed {payload : List Byte} (h : payload.length ≠ 2) : routeQuery payload = .malformed := by
  unfold routeQuery
  split
  · exact absurd rfl h
  · rfl

theorem wholeFrameIsRoutedByItsKind : Clause.WholeFrameIsRoutedByItsKind := by
  intro s h l rest p ws hready hrx hr hwhole hbad hclash own judged bad payload
  have hexec := exec_frameBoundary_whole hready hrx hr hwhole
  have hjudged : judgedFrame s h ws = judged := judgedFrame_eq hrx hclash
  have hbump : (judgedFrame s h ws).bump .badFrame = bad := by
    rw [hjudged]
    exact bump_badFrame (s := judged) hbad
  rw [hbump, hjudged] at hexec
  refine ⟨fun hk m hm hother => ?_, fun hk m hm hown => ?_, fun hk hm => ?_, fun hk m hm => ?_, fun hk hm => ?_,
    fun hk mask action hpayload => ?_, fun hk target options hpayload => ?_, fun hk hlen => ?_, fun hk => ?_⟩
  · have hto : routeFrame s.straps.id p h payload = .accepted (.claim m) := by
      simp [routeFrame, headerKind, hk, kindClaim, routeClaim, headerSender, hm, hother]
    rw [hexec, hto]
  · have hto : routeFrame s.straps.id p h payload = .nothing := by
      simp [routeFrame, headerKind, hk, kindClaim, routeClaim, headerSender, hown, hown ▸ hm]
    rw [hexec, hto]
  · have hto : routeFrame s.straps.id p h payload = .malformed := by
      simp [routeFrame, headerKind, hk, kindClaim, routeClaim, headerSender, hm]
    rw [hexec, hto]
  · have hto : routeFrame s.straps.id p h payload = .accepted (.scene p m) := by
      simp [routeFrame, headerKind, hk, kindClaim, kindScene, routeScene, hm]
    rw [hexec, hto]
  · have hto : routeFrame s.straps.id p h payload = .malformed := by
      simp [routeFrame, headerKind, hk, kindClaim, kindScene, routeScene, hm]
    rw [hexec, hto]
  · have hone := byte_eq_iff action (show 1 < 256 by decide)
    have htwo := byte_eq_iff action (show 2 < 256 by decide)
    have hto : routeFrame s.straps.id p h payload =
        if action.toNat = 1 then .accepted .bypassOn else if action.toNat = 2 then .accepted .bypassOff else .nothing := by
      simp only [routeFrame, headerKind, hk, kindClaim, kindScene, kindControl, hpayload, routeControl, hone, htwo]
      rfl
    rw [hexec, hto]
    by_cases h1 : action.toNat = 1
    · rw [if_pos h1, if_pos h1]
    · rw [if_neg h1, if_neg h1]
      by_cases h2 : action.toNat = 2
      · rw [if_pos h2, if_pos h2]
      · rw [if_neg h2, if_neg h2]
  · have hto : routeFrame s.straps.id p h payload = .accepted (.query (options.getLsbD 0)) := by
      simp [routeFrame, headerKind, hk, kindClaim, kindScene, kindControl, kindQuery, hpayload, routeQuery]
    rw [hexec, hto]
  · have hto : routeFrame s.straps.id p h payload = .malformed := by
      rcases hk with hk | hk
      · simp [routeFrame, headerKind, hk, kindClaim, kindScene, kindControl, routeControl_malformed hlen]
      · simp [routeFrame, headerKind, hk, kindClaim, kindScene, kindControl, kindQuery, routeQuery_malformed hlen]
    rw [hexec, hto]
  · have hto : routeFrame s.straps.id p h payload = .nothing := by
      have h1 : h.toNat / 16 ≠ 1 := by omega
      have h2 : h.toNat / 16 ≠ 2 := by omega
      have h3 : h.toNat / 16 ≠ 3 := by omega
      have h4 : h.toNat / 16 ≠ 4 := by omega
      simp only [routeFrame, headerKind, kindClaim, kindScene, kindControl, kindQuery, h1, h2, h3, h4, if_false]
    rw [hexec, hto]

/-- Settles O40: the receiver's states, then a whole frame's judgement and routing by its kind. -/
theorem frameBoundaryJudgesTheFrame : Obligations.FrameBoundaryJudgesTheFrame :=
  ⟨frameBoundaryReadiesTheReceiver, wholeFrameIsRoutedByItsKind⟩

end

end Sys2Proof.Receiver

/-! PROOF. Owed steps and acceptances (sections 10.6 and 11.4), and the start of a send (section 10.8). -/

namespace Sys2Proof.OwedSteps

open Sys2Proof.Machine Sys2Proof.ScenesAndControls Sys2Proof.TrackerEvents

/-! ### QUERY (R169, R180) -/

theorem slotReplaced_eq (slot : Slot) (f : FrameInHand) :
    FrameInHand.slotReplaced slot f = { f with replaced := f.replaced || decide (f.content.slot = slot) } := by
  unfold FrameInHand.slotReplaced
  split
  · next h => simp [h]
  · next h => simp [h]

theorem placeReport_eq (clear : Bool) (l : LineControl) : l.placeReport clear = { l with
    reportSlot := some clear
    frameInHand := l.frameInHand.map fun f =>
      { f with replaced := f.replaced || decide (f.content.slot = .report) }
    transmitter := if l.transmitter = .idle then .deferring else l.transmitter } := by
  have hpending : ∀ l : LineControl, l.reportSlot = some clear → l.pendingSlot.isSome = true := fun l h => by
    unfold LineControl.pendingSlot
    split
    · rfl
    · rw [if_pos (by rw [h]; rfl)]
      rfl
  have hmap : FrameInHand.slotReplaced .report =
      fun f => { f with replaced := f.replaced || decide (f.content.slot = .report) } :=
    funext (slotReplaced_eq .report)
  rw [LineControl.placeReport, hmap, LineControl.wake, hpending _ rfl]
  by_cases hidle : l.transmitter = .idle
  · rw [if_pos ⟨hidle, rfl⟩, if_pos hidle]
  · rw [if_neg fun h => hidle h.1, if_neg hidle]

theorem queryPlacesAReportRequest : Clause.QueryPlacesAReportRequest := by
  intro clear s h
  rw [← placeReport_eq]
  exact takeAccepted_of_ready h (.query clear)

/-! ### Acceptances do not look at what is owed -/

section
variable (s : State) (l : List Owed)

theorem abandonAnalysis_withOwed :
    State.abandonAnalysis { s with owed := l } = { s.abandonAnalysis with owed := l } := by
  obtain ⟨hflight, hidle⟩ := State.abandonAnalysis_eq s
  obtain ⟨hflight', hidle'⟩ := State.abandonAnalysis_eq { s with owed := l }
  by_cases h : ∃ a, s.tracker = .analysing a
  · rw [hflight h, hflight' h]
  · rw [hidle h, hidle' h]

theorem sceneTakesEffect_withOwed (sc : Scene) :
    State.sceneTakesEffect sc { s with owed := l } = { s.sceneTakesEffect sc with owed := l } := by
  have habandon := abandonAnalysis_withOwed { s with scenes := { s.scenes with active := sc, pending := none } } l
  unfold State.sceneTakesEffect
  rw [State.sceneVoices_eq, State.sceneVoices_eq]
  show ({ State.abandonAnalysis { s with scenes := { s.scenes with active := sc, pending := none }, owed := l } with
    alloc := _, channels := _ } : State) = _
  rw [habandon]
  rfl

theorem switchScene_withOwed (p : Pos) (m : SceneMsg) :
    State.switchScene p m { s with owed := l } = { s.switchScene p m with owed := l } := by
  unfold State.switchScene
  cases keptSwitch m.switchMode with
  | atOnce => exact sceneTakesEffect_withOwed s l _
  | atRest => rfl
  | atDelay =>
    by_cases h : m.delay.toNat ≤ elapsedCount s.clock p
    · simp only [h, if_true]
      exact sceneTakesEffect_withOwed s l _
    · simp only [h, if_false]
      rfl

theorem acceptFrame_withOwed (a : Accepted) :
    State.acceptFrame a { s with owed := l } = { s.acceptFrame a with owed := l } := by
  cases a with
  | claim m =>
    show State.acceptClaim m { s with owed := l } = { s.acceptClaim m with owed := l }
    unfold State.acceptClaim
    cases m.wellFormed with
    | false => rfl
    | true =>
      by_cases hown : m.sender = s.straps.id
      · simp only [hown]
        rfl
      · simp only [hown, if_false]
        cases offerClaim s.claimQueue m <;> rfl
  | scene p m =>
    show State.acceptScene p m { s with owed := l } = { s.acceptScene p m with owed := l }
    unfold State.acceptScene
    cases m.wellFormed with
    | false => rfl
    | true =>
      cases sceneClamped m with
      | false => exact switchScene_withOwed s l p m
      | true => exact switchScene_withOwed (s.bump .clamp) l p m
  | bypassOn =>
    show State.acceptBypassOn { s with owed := l } = { s.acceptBypassOn with owed := l }
    unfold State.acceptBypassOn
    by_cases h : s.scenes.bypass = true
    · simp only [h, if_true]
    · simp only [h, bypassOn_eq]
      rfl
  | bypassOff => rfl
  | query c => rfl

end

section
variable {s : State}

theorem exec_accept_owed {a : Accepted} (hreset : s.resetN = true) (ho : Owed.accept a ∈ s.owed) :
    exec a.command s = .next (State.acceptFrame a { s with owed := s.owed.erase (.accept a) }) := by
  have htakes : whenReleased (fun s => s.takeAccepted a) s =
      .next (State.acceptFrame a { s with owed := s.owed.erase (.accept a) }) := by
    simp only [whenReleased, hreset, if_true, State.takeAccepted, ho, State.takeOwed]
    rfl
  cases a <;> exact htakes

theorem exec_accept_settled {a : Accepted} (hreset : s.resetN = true) (ho : Owed.accept a ∉ s.owed) :
    exec a.command s = .next (s.settle.acceptFrame a) := by
  have htakes : whenReleased (fun s => s.takeAccepted a) s = .next (s.settle.acceptFrame a) := by
    simp only [whenReleased, hreset, if_true, State.takeAccepted, ho, if_false]
  cases a <;> exact htakes

theorem owedAcceptanceIsTakenByItsCommand : Clause.OwedAcceptanceIsTakenByItsCommand := by
  intro a s hreset ho
  refine ⟨State.acceptFrame a { s with owed := [] }, ?_, ?_⟩
  · exact exec_accept_settled (s := { s with owed := [] }) hreset nofun
  · rw [exec_accept_owed hreset ho, acceptFrame_withOwed s _ a, acceptFrame_withOwed s [] a]

/-! ### Owed steps first (log 1) -/

theorem exec_owed_first {o : Owed} {rest : List Owed} (hreset : s.resetN = true) (ho : s.owed = o :: rest)
    (htick : ¬ (o = .analysisTick ∧ Owed.leaveWarming ∈ rest)) :
    exec o.command s = .next (State.perform o { s with owed := rest }) := by
  have hmem : o ∈ s.owed := ho ▸ .head _
  have htakes : whenReleased (fun s => s.takeOwed o) s = .next (State.perform o { s with owed := rest }) := by
    rw [takeOwed_performs hreset hmem, ho, List.erase_cons_head]
  cases o with
  | analysisTick =>
    have hnot : Owed.leaveWarming ∉ s.owed := by
      rw [ho]
      rintro (_ | ⟨_, h⟩)
      exact htick ⟨rfl, h⟩
    have htick' : whenReleased (fun s => s.takeOwedTick) s = whenReleased (fun s => s.takeOwed .analysisTick) s := by
      simp only [whenReleased, hreset, if_true, State.takeOwedTick, hmem, State.takeOwed_of_not_mem hnot]
    exact htick'.trans htakes
  | accept a =>
    have haccept := exec_accept_owed hreset hmem
    rw [ho, List.erase_cons_head] at haccept
    exact haccept
  | leaveWarming | windowOverwrite | sceneDuePoint | fetchWithdrawal | placementPointDue | grainDrop | enteringRampFull
  | cycleStop => exact htakes

/-- A command that takes every owed step first sees the state through what they leave. -/
theorem exec_of_settle {t : State} (hs : s.resetN = true) (ht : t.resetN = true) (h : s.settle = t.settle) (c : Instr)
    (hc : Instr.settles c = true) : exec c s = exec c t := by
  have hall : ∀ f : State → State, whenReleased (fun s => f s.settle) s = whenReleased (fun s => f s.settle) t :=
    fun f => by simp only [whenReleased, hs, ht, if_true, h]
  cases c with
  | frameSync | sampleArrival | lossOfAudio | segmentCompletion | peerEntryExpiry | fetchCompletion | placeCompletion
  | frameStart | characterReceived | lineReturnToMark | frameBoundary | hush | sendStart | echoCheck | startBit =>
    exact hall _
  | resetAssert | resetRelease | leaveWarming | analysisTick | windowOverwrite | sceneDuePoint | placementPointDue
  | fetchWithdrawal | grainDrop | enteringRampFull | cycleStop | claim | scene | bypassOn | bypassOff | query =>
    cases hc

theorem owedStepsAreTakenFirst : Clause.OwedStepsAreTakenFirst := by
  intro o rest s t hreset ho htick hexec
  have ht : State.perform o { s with owed := rest } = t := by
    rw [exec_owed_first hreset ho htick] at hexec
    exact Host.Outcome.next.inj hexec
  obtain ⟨⟨htreset, -, -, -, htpending, -, -, -⟩, -⟩ := State.grown_perform { s with owed := rest } o
  have howed := State.perform_owed { s with owed := rest } o
  rw [ht] at htreset htpending howed
  have hsettle : s.settle = t.settle := by rw [State.settle_cons ho, ht]
  refine ⟨howed, exec_of_settle hreset (htreset.trans hreset) hsettle, fun a ha => ?_, fun hpending => ?_⟩
  · have hrest : Owed.accept a ∉ t.owed := by
      rw [howed]
      exact fun h => ha (ho ▸ .tail _ h)
    rw [exec_accept_settled hreset ha, exec_accept_settled (htreset.trans hreset) hrest, hsettle]
  · have htp : t.pending = [] := htpending.trans hpending
    simp only [step, hpending, htp, State.passBitTime, hreset, htreset.trans hreset, if_true, hsettle]

/-- Settles O41: the request's slot, the acceptance by its own command, and the first owed step by its own. -/
theorem owedStepsAndAcceptancesAreTaken : Obligations.OwedStepsAndAcceptancesAreTaken :=
  ⟨queryPlacesAReportRequest, owedAcceptanceIsTakenByItsCommand, owedStepsAreTakenFirst⟩

end

/-! ### Sends (R169, R170) -/

theorem gapsRotateFromTheLastSender : Clause.GapsRotateFromTheLastSender := by
  refine fun own last => ⟨?_, rfl⟩
  have hown := own.isLt
  have hlast := last.isLt
  rw [rotatingGap, BitVec.toNat_sub, BitVec.toNat_sub]
  have hone : (1 : StationId).toNat = 1 := rfl
  omega

section
variable {s : State}

theorem exec_sendStart (h : s.ready) : exec .sendStart s = .next s.takeSendStart :=
  whenReleased_settle h State.takeSendStart

/-- What a SEND_START does with a gap to wait for: the idle time reaches it, and the send begins (R170). -/
def startSend (s : State) : State :=
  State.beginSend (s.setLine { s.line with
    idle := min Config.maxIdle (max s.line.idle ((s.line.gap s.straps.id).getD 0)) })

theorem takeSendStart_eq (hgap : ∃ g, s.line.gap s.straps.id = some g) (hidle : s.line.mayIdle = true) :
    s.takeSendStart = startSend s.passBoundary := by
  obtain ⟨g, hg⟩ := hgap
  simp only [State.takeSendStart, hg, hidle, if_true]
  rfl

theorem passBoundary_of_ready (h : s.line.receiver = .ready) : s.passBoundary = s := if_pos h

theorem beginSend_of_claim {r : ClaimRecord} (hslot : s.line.claimSlot = some r) (hclash : s.line.clash = false) :
    s.beginSend = { s with line := { s.line with
      transmitter := .sending
      frameInHand := some
        { chars := buildFrame 1 s.straps.id (claimPayload r), sent := 0, content := .claim r, replaced := false }
      echo := [] } } := by
  have hcontent : s.line.pendingContent = some (.claim r) := by
    simp [LineControl.pendingContent, LineControl.pendingSlot, hslot, hclash]
  simp only [State.beginSend, hcontent]
  rfl

theorem beginSend_of_report {clear : Bool} (hclaim : s.line.claimSlot = none ∨ s.line.clash = true)
    (hslot : s.line.reportSlot = some clear) : s.beginSend = { s with line := { s.line with
      transmitter := .sending
      frameInHand := some
        { chars := buildFrame 5 s.straps.id (reportPayload s), sent := 0, content := .report clear, replaced := false }
      echo := [] } } := by
  have hcontent : s.line.pendingContent = some (.report clear) := by
    rcases hclaim with h | h <;> simp [LineControl.pendingContent, LineControl.pendingSlot, hslot, h]
  simp only [State.beginSend, hcontent]
  rfl

theorem beginSend_of_none (hclaim : s.line.claimSlot = none ∨ s.line.clash = true) (hslot : s.line.reportSlot = none) :
    s.beginSend = { s with line := { s.line with
      transmitter := .idle, frameInHand := none, echo := [], collisions := 0, collisionSlot := none } } := by
  have hcontent : s.line.pendingContent = none := by
    rcases hclaim with h | h <;> simp [LineControl.pendingContent, LineControl.pendingSlot, hslot, h]
  simp only [State.beginSend, hcontent]
  rfl

theorem sendStartBuildsTheFrameInHand : Clause.SendStartBuildsTheFrameInHand := by
  refine ⟨fun s h hstays => ?_, ?_⟩
  · rw [exec_sendStart h]
    have hquiet : s.line.gap s.straps.id = none ∨ s.line.mayIdle = false := by
      rcases hstays with hrx | ⟨hrx, chars, p, ws, hr⟩ | ht | ht
      · exact .inr (by rw [LineControl.mayIdle, hrx])
      · refine .inr (Bool.eq_false_iff.2 fun hidle => ?_)
        rw [LineControl.mayIdle_iff, hr] at hidle
        simp [hrx] at hidle
      · exact .inl (by rw [LineControl.gap, ht])
      · exact .inl (by rw [LineControl.gap, ht])
    rcases hquiet with hgap | hidle
    · simp only [State.takeSendStart, hgap]
    · rw [State.takeSendStart, hidle]
      split <;> rfl
  · intro s g h hready hrx hwaits reached
    have hgap : s.line.gap s.straps.id = some g := by
      rcases hwaits with ⟨ht, rfl⟩ | ⟨ht, rfl⟩ <;> rw [LineControl.gap, ht]
    have hexec : exec .sendStart s = .next (State.beginSend { s with line := reached }) := by
      rw [exec_sendStart h, takeSendStart_eq ⟨g, hgap⟩ ((LineControl.mayIdle_iff _).2 (.inl hrx)),
        passBoundary_of_ready hready, startSend, hgap]
      rfl
    refine ⟨fun r hslot hclash => ?_, fun clear hclaim hslot => ?_, fun hclaim hslot => ?_⟩
    · rw [hexec, beginSend_of_claim (s := { s with line := reached }) hslot hclash]
    · rw [hexec, beginSend_of_report (s := { s with line := reached }) hclaim hslot]
      rfl
    · rw [hexec, beginSend_of_none (s := { s with line := reached }) hclaim hslot]

end

/-! ### The boundary before a send (R170; log 18) -/

/-- The parts of the line that a send's start looks at beside the slots. -/
def LineKept (l l' : LineControl) : Prop :=
  l'.receiver = l.receiver ∧ l'.rx = l.rx ∧ l'.transmitter = l.transmitter

section
variable {s : State}

theorem sceneTakesEffect_line (s : State) (sc : Scene) : (s.sceneTakesEffect sc).line = s.line := by
  obtain ⟨h, -⟩ := s.sceneTakesEffect_taken sc
  rw [h]

theorem switchScene_line (s : State) (p : Pos) (m : SceneMsg) : (s.switchScene p m).line = s.line := by
  unfold State.switchScene
  split
  · exact sceneTakesEffect_line s _
  · rfl
  · split
    · exact sceneTakesEffect_line s _
    · rfl

/-- An acceptance wakes an IDLE transmitter at most (R166, R170). -/
theorem acceptFrame_lineKept (h : s.line.transmitter ≠ .idle) (a : Accepted) :
    LineKept s.line (s.acceptFrame a).line := by
  cases a with
  | claim m =>
    show LineKept s.line (s.acceptClaim m).line
    unfold State.acceptClaim
    repeat' first | exact ⟨rfl, rfl, rfl⟩ | split
  | scene p m =>
    have hline : (s.acceptScene p m).line = s.line := by
      unfold State.acceptScene
      split
      · rw [switchScene_line]
        split <;> rfl
      · rfl
    show LineKept s.line (s.acceptScene p m).line
    rw [hline]
    exact ⟨rfl, rfl, rfl⟩
  | bypassOn =>
    show LineKept s.line s.acceptBypassOn.line
    unfold State.acceptBypassOn
    split
    · exact ⟨rfl, rfl, rfl⟩
    · rw [bypassOn_eq, LineControl.placeClaim_placed]
      exact ⟨rfl, rfl, if_neg fun hidle => h hidle.1⟩
  | bypassOff => exact ⟨rfl, rfl, rfl⟩
  | query c =>
    show LineKept s.line (s.line.placeReport c)
    rw [placeReport_eq]
    exact ⟨rfl, rfl, if_neg h⟩

/-- A boundary has brought the receiver to READY, and owes one acceptance at most (R166). -/
def BoundaryPassed (s t : State) : Prop :=
  t.line.receiver = .ready ∧ t.line.rx = .mark ∧ t.line.transmitter = s.line.transmitter ∧ t.resetN = s.resetN ∧
    (t.owed = s.owed ∨ ∃ a, t.owed = s.owed ++ [.accept a])

theorem boundaryPassed_route {t : State} (h : BoundaryPassed s t) (ho : t.owed = s.owed) (p : Pos) (x : Byte)
    (payload : List Byte) : BoundaryPassed s (t.route p x payload) := by
  obtain ⟨hready, hrx, ht, hreset, -⟩ := h
  unfold State.route
  split
  · exact ⟨hready, hrx, ht, hreset, .inr ⟨_, congrArg (· ++ _) ho⟩⟩
  · exact ⟨hready, hrx, ht, hreset, .inl ho⟩
  · exact ⟨hready, hrx, ht, hreset, .inl ho⟩

theorem boundaryPassed_judge (chars : List Byte) (p : Pos) (ws : Bool) :
    BoundaryPassed s ((s.setLine s.line.readyAtBoundary).judge chars p ws) := by
  unfold State.judge
  split
  · exact ⟨rfl, rfl, rfl, rfl, .inl rfl⟩
  · split
    · refine boundaryPassed_route ?_ ?_ _ _ _
      · unfold State.clashTest
        split
        · exact ⟨rfl, rfl, rfl, rfl, .inl rfl⟩
        · exact ⟨rfl, rfl, rfl, rfl, .inl rfl⟩
      · unfold State.clashTest
        split <;> rfl
    · exact ⟨rfl, rfl, rfl, rfl, .inl rfl⟩

theorem boundaryPassed_endFrame (hready : s.line.receiver ≠ .ready) (hbreak : s.line.receiver ≠ .breaking) :
    BoundaryPassed s s.endFrame := by
  simp only [State.endFrame]
  split
  · exact ⟨rfl, rfl, rfl, rfl, .inl rfl⟩
  · exact boundaryPassed_judge _ _ _
  · exact ⟨rfl, rfl, rfl, rfl, .inl rfl⟩
  · exact ⟨rfl, rfl, rfl, rfl, .inl rfl⟩
  · next h => exact absurd h hready
  · next h => exact absurd h hbreak

/-- What the boundary owes leaves the receiver and a transmitter that waits for its gap as they are. -/
theorem lineKept_settle {t : State} (ht : t.line.transmitter ≠ .idle)
    (howed : t.owed = [] ∨ ∃ a, t.owed = [.accept a]) : LineKept t.line t.settle.line := by
  rcases howed with h | ⟨a, h⟩
  · rw [State.settle_of_nil h]
    exact ⟨rfl, rfl, rfl⟩
  · have hnone : (State.perform (.accept a) { t with owed := [] }).owed = [] := State.perform_owed _ _
    rw [State.settle_cons h, State.settle_of_nil hnone]
    exact acceptFrame_lineKept (s := { t with owed := [] }) ht a

theorem gap_of_waiting {own : StationId} {l : LineControl} (h : l.transmitter = .deferring ∨ l.transmitter = .backoff) :
    ∃ g, l.gap own = some g := by
  rcases h with h | h
  · exact ⟨_, by rw [LineControl.gap, h]⟩
  · exact ⟨_, by rw [LineControl.gap, h]⟩

theorem sendStartPassesTheBoundaryFirst : Clause.SendStartPassesTheBoundaryFirst := by
  intro s h hwaits hr
  have hidle : s.line.mayIdle = true := by
    rw [LineControl.mayIdle_iff]
    exact hr.imp (fun h => h.1) id
  have hnot : s.line.receiver ≠ .ready ∧ s.line.receiver ≠ .breaking := by
    rcases hr with ⟨-, chars, p, ws, hr⟩ | ⟨-, hr | hr | ⟨id, hr⟩⟩ <;> rw [hr] <;> exact ⟨nofun, nofun⟩
  have hboundary : s.takeBoundary = s.endFrame := if_pos hidle
  obtain ⟨hready, hrx, ht, hreset, howed⟩ := boundaryPassed_endFrame hnot.1 hnot.2
  rw [h.2] at howed
  rw [← hboundary] at hready hrx ht hreset howed
  refine ⟨s.takeBoundary, whenReleased_settle h State.takeBoundary, hready, hrx, ?_⟩
  generalize hb : s.takeBoundary = t at hready hrx ht hreset howed ⊢
  have hwaits' : t.line.transmitter = .deferring ∨ t.line.transmitter = .backoff := by rwa [ht]
  obtain ⟨hready', hrx', ht'⟩ := lineKept_settle (t := t) (by rcases hwaits' with h | h <;> rw [h] <;> nofun) howed
  have hpass : s.passBoundary = t.settle := by rw [State.passBoundary, if_neg hnot.1, hb]
  have hexec : exec .sendStart t = .next t.settle.takeSendStart := by
    show whenReleased (fun s => s.settle.takeSendStart) t = _
    rw [whenReleased, hreset, h.1]
    rfl
  rw [exec_sendStart h, takeSendStart_eq (gap_of_waiting hwaits) hidle, hpass, hexec,
    takeSendStart_eq (gap_of_waiting (by rwa [ht'])) ((LineControl.mayIdle_iff _).2 (.inl (hrx'.trans hrx))),
    passBoundary_of_ready (hready'.trans hready)]

/-- Settles O42: the gaps by their remainders, the send by the slots, and the boundary that a send passes first. -/
theorem sendStartBuildsTheFrameAfterTheGap : Obligations.SendStartBuildsTheFrameAfterTheGap :=
  ⟨gapsRotateFromTheLastSender, sendStartBuildsTheFrameInHand, sendStartPassesTheBoundaryFirst⟩

end

end Sys2Proof.OwedSteps

/-! PROOF. REPORT payloads and what an echo check finds (sections 10.8, 10.9 and 11.2). -/

namespace Sys2Proof.ReportsAndEchoes

open Sys2Proof.Machine Sys2Proof.OwedSteps

/-! ### The REPORT payload (R181) -/

section
variable (s : State)

/-- The payload's three parts: the head, the voices, and the counters. -/
theorem reportPayload_eq : reportPayload s =
    (reportHead s).map (BitVec.ofNat 8) ++ (Voice.all.flatMap (reportVoice s)).map (BitVec.ofNat 8) ++
      s.counters.reportOrder.flatMap fun n => twoChars (BitVec.ofNat 16 n) := by
  rw [reportPayload, List.map_append]

theorem twoChars_eq (n : Nat) : twoChars (BitVec.ofNat 16 n) = [BitVec.ofNat 8 (n / 256), BitVec.ofNat 8 n] := by
  have hhigh : ((BitVec.ofNat 16 n >>> 8).setWidth 8 : Byte) = BitVec.ofNat 8 (n / 256) := by
    apply BitVec.eq_of_toNat_eq
    simp only [BitVec.toNat_setWidth, BitVec.toNat_ushiftRight, BitVec.toNat_ofNat, Nat.shiftRight_eq_div_pow]
    omega
  have hlow : ((BitVec.ofNat 16 n).setWidth 8 : Byte) = BitVec.ofNat 8 n := by
    apply BitVec.eq_of_toNat_eq
    simp only [BitVec.toNat_setWidth, BitVec.toNat_ofNat]
    omega
  rw [twoChars, hhigh, hlow]

/-- The first strap character holds the group above the id (R181). -/
theorem idCharacter_eq : ∀ (id : BitVec 4) (group : BitVec 2),
    BitVec.ofNat 8 (id.toNat + 16 * group.toNat) = 0#2 ++ group ++ id := by
  decide

/-- The second strap character holds NV, RATE, FS and TUNE, the last lowest (R181). -/
theorem optionCharacter_eq : ∀ (tune : BitVec 2) (fs rate : BitVec 1) (nv : BitVec 2),
    BitVec.ofNat 8 (tune.toNat + 4 * fs.toNat + 8 * rate.toNat + 16 * nv.toNat) =
      0#2 ++ nv ++ rate ++ fs ++ tune := by
  decide

/-- The flag character holds ABSENT, the clash flag and the bypass flag, the last lowest (R181). -/
theorem flagCharacter_eq : ∀ absent clash bypass : Bool,
    BitVec.ofNat 8 (flagBit bypass 1 + flagBit clash 2 + flagBit absent 4) =
      0#5 ++ BitVec.ofBool absent ++ BitVec.ofBool clash ++ BitVec.ofBool bypass := by
  decide

/-- The characters of the head, one by one (R181). -/
theorem headCharacters_eq : (reportHead s).map (BitVec.ofNat 8) = [
    0#2 ++ s.straps.group ++ s.straps.id,
    0#2 ++ s.straps.nv ++ s.straps.rate ++ s.straps.fs ++ s.straps.tune,
    BitVec.ofNat 8 s.follower.code,
    BitVec.ofNat 8 (s.follower.heldNote.getD 0),
    BitVec.ofNat 8 s.result.reason.code,
    0#5 ++ BitVec.ofBool (decide (s.audio.state = .absent)) ++ BitVec.ofBool s.line.clash ++
      BitVec.ofBool s.scenes.bypass,
    BitVec.ofNat 8 s.scenes.active.number,
    BitVec.ofNat 8 (pendingCode s.scenes.pending)] := by
  rw [← idCharacter_eq, ← optionCharacter_eq, ← flagCharacter_eq]
  rfl

/-- The counters' characters, two each (R181). -/
theorem counterCharacters_eq :
    (s.counters.reportOrder.flatMap fun n => twoChars (BitVec.ofNat 16 n)) =
      s.counters.reportOrder.flatMap fun n => [BitVec.ofNat 8 (n / 256), BitVec.ofNat 8 n] := by
  simp only [twoChars_eq]

/-- A voice's two characters stand after the head, in voice order (R181). -/
theorem reportPayload_voice (v : Voice) :
    (reportPayload s)[8 + 2 * v.index]? = some (BitVec.ofNat 8 (if s.enabled v then (s.channel v).state.code else 0)) ∧
    (reportPayload s)[9 + 2 * v.index]? = some (BitVec.ofNat 8 ((s.voice v).target.getD 0)) := by
  rw [reportPayload_eq]
  cases v <;> exact ⟨rfl, rfl⟩

theorem reportPayload_head : (reportPayload s).take 8 = (reportHead s).map (BitVec.ofNat 8) := by
  rw [reportPayload_eq]
  rfl

theorem reportPayload_counters : (reportPayload s).drop 16 =
    s.counters.reportOrder.flatMap fun n => twoChars (BitVec.ofNat 16 n) := by
  rw [reportPayload_eq]
  rfl

end

/-- Settles O43: the payload is its head, two characters a voice, and two a counter, each read off. -/
theorem reportShowsTheStation : Obligations.ReportShowsTheStation := by
  intro s
  refine ⟨?_, ?_, fun v => ?_, ?_⟩
  · rw [reportPayload_eq]
    rfl
  · rw [reportPayload_head, headCharacters_eq]
    have hfollower : BitVec.ofNat 8 s.follower.code = (match s.follower with
        | .rest => 0 | .arming _ _ => 1 | .held _ _ => 2 | .changing _ _ _ => 3 | .lapsing _ _ _ => 4 : Byte) := by
      cases s.follower <;> rfl
    have hreason : BitVec.ofNat 8 s.result.reason.code = (match s.result.reason with
        | .quiet => 0 | .unsure => 1 | .outOfRange => 2 | .voiced _ _ _ => 3 : Byte) := by
      cases s.result.reason <;> rfl
    rw [hfollower, hreason]
    obtain _ | ⟨_, _ | _⟩ := s.scenes.pending <;> rfl
  · obtain ⟨hstate, htarget⟩ := reportPayload_voice s v
    refine ⟨hstate.trans (congrArg some ?_), htarget⟩
    split
    · cases (s.channel v).state <;> rfl
    · rfl
  · rw [reportPayload_counters, counterCharacters_eq]
    rfl

/-! ### What an echo check finds (R171 to R173) -/

theorem pendingSlot_isSome (l : LineControl) : l.pendingSlot.isSome = true ↔
    (l.claimSlot.isSome = true ∧ l.clash = false) ∨ l.reportSlot.isSome = true := by
  unfold LineControl.pendingSlot
  cases l.claimSlot.isSome <;> cases l.clash <;> cases l.reportSlot.isSome <;> decide

/-- The transmitter waits for a gap where a slot is pending, and else it is IDLE (R171, R173). -/
theorem settleTransmitter_eq (l : LineControl) : l.settleTransmitter = { l with
    transmitter := if (l.claimSlot.isSome = true ∧ l.clash = false) ∨ l.reportSlot.isSome = true then .deferring
      else .idle } := by
  simp only [LineControl.settleTransmitter, pendingSlot_isSome]

/-- The slot that a frame came from is emptied, and only it, unless it has been replaced (R169). -/
theorem emptySlot_eq (f : FrameInHand) (l : LineControl) : l.emptySlot f = { l with
    claimSlot := if f.content.slot = .claim ∧ f.replaced = false then none else l.claimSlot
    reportSlot := if f.content.slot = .report ∧ f.replaced = false then none else l.reportSlot } := by
  unfold LineControl.emptySlot
  obtain ⟨chars, sent, content, replaced⟩ := f
  cases replaced <;> cases content <;> rfl

/-- The collisions that the slot of a frame has had in a row (R172). -/
def heldCollisions (f : FrameInHand) (l : LineControl) : Nat :=
  if l.collisionSlot = some f.content.slot then l.collisions else 0

/-- The line controller after a collision that is not its slot's eighth (R172). -/
def backedOff (f : FrameInHand) (l : LineControl) : LineControl :=
  { l with
    transmitter := .backoff, collisions := heldCollisions f l + 1, collisionSlot := some f.content.slot, echo := [] }

/-- The line controller after the collision that gives its frame up (R173). -/
def givenUp (f : FrameInHand) (l : LineControl) : LineControl :=
  let keptClaim := if f.content.slot = .claim ∧ f.replaced = false then none else l.claimSlot
  let keptReport := if f.content.slot = .report ∧ f.replaced = false then none else l.reportSlot
  { l with
    collisions := 0, collisionSlot := none, frameInHand := none, echo := [], claimSlot := keptClaim,
    reportSlot := keptReport,
    transmitter :=
      if (keptClaim.isSome = true ∧ l.clash = false) ∨ keptReport.isSome = true then .deferring else .idle }

section
variable {s : State} {f : FrameInHand} {heard : Option Byte}

theorem collide_backsOff (hand : s.line.frameInHand = some f) (hcollide : s.counters.collide ≤ 65535)
    (hheld : heldCollisions f s.line + 1 < 8) : s.collide f = { s with
      line := backedOff f s.line
      counters := { s.counters with collide := min 65535 (s.counters.collide + 1) } } := by
  have hcount : s.bump .collide =
      { s with counters := { s.counters with collide := min 65535 (s.counters.collide + 1) } } := by
    rw [State.bump, Counters.bump, satSucc_eq_min _ hcollide]
  simp only [State.collide, hcount]
  refine (if_pos hheld).trans ?_
  rw [backedOff, ← hand]
  rfl

theorem collide_givesUp (hcollide : s.counters.collide ≤ 65535) (hgiveUp : s.counters.giveUp ≤ 65535)
    (hheld : 8 ≤ heldCollisions f s.line + 1) : s.collide f = { s with
      line := givenUp f s.line
      counters := { s.counters with
        collide := min 65535 (s.counters.collide + 1), giveUp := min 65535 (s.counters.giveUp + 1) } } := by
  have hcount : s.bump .collide =
      { s with counters := { s.counters with collide := min 65535 (s.counters.collide + 1) } } := by
    rw [State.bump, Counters.bump, satSucc_eq_min _ hcollide]
  simp only [State.collide, hcount]
  refine (if_neg (Nat.not_lt.2 hheld)).trans ?_
  rw [emptySlot_eq, settleTransmitter_eq, State.bump, Counters.bump]
  simp only [State.setLine, givenUp, satSucc_eq_min _ hgiveUp]

theorem exec_echoCheck (hready : s.ready) (hsending : s.line.transmitter = .sending)
    (hand : s.line.frameInHand = some f) : exec (.echoCheck heard) s = .next (s.checkEcho heard f) := by
  show whenReleased (fun s => s.settle.takeEcho heard) s = _
  rw [whenReleased_settle hready]
  simp only [State.takeEcho, hsending, hand]

theorem checkEcho_differs (h : heard = none ∨ heard ≠ f.chars[f.sent]?) : s.checkEcho heard f = s.collide f := by
  rw [State.checkEcho, if_neg]
  rintro ⟨hsome, heq⟩
  rcases h with hnone | hne
  · rw [hnone] at hsome
    cases hsome
  · exact hne heq

theorem checkEcho_goesOn {c : Byte} (h : f.chars[f.sent]? = some c) (hmore : f.sent + 1 < f.chars.length) :
    s.checkEcho (some c) f =
      s.setLine { s.line with frameInHand := some { f with sent := f.sent + 1 }, echo := [] } := by
  rw [State.checkEcho, if_pos ⟨rfl, h.symm⟩, if_pos hmore]

theorem checkEcho_succeeds {c : Byte} (h : f.chars[f.sent]? = some c) (hlast : f.sent + 1 = f.chars.length) :
    s.checkEcho (some c) f = s.sendSuccess f := by
  rw [State.checkEcho, if_pos ⟨rfl, h.symm⟩, if_neg (by omega)]

end

theorem matchingEchoGoesOnOrSucceeds : Clause.MatchingEchoGoesOnOrSucceeds := by
  intro s f c hready hsending hand hchar
  rw [exec_echoCheck hready hsending hand]
  refine ⟨fun hmore => ?_, fun hlast => ⟨fun r hr => ?_, fun clear hclear => ?_⟩⟩
  · rw [checkEcho_goesOn hchar hmore]
    rfl
  · rw [checkEcho_succeeds hchar hlast]
    simp only [State.sendSuccess, emptySlot_eq, settleTransmitter_eq, hr]
    cases f.replaced <;> rfl
  · rw [checkEcho_succeeds hchar hlast]
    simp only [State.sendSuccess, emptySlot_eq, settleTransmitter_eq, hclear, State.reportSuccess]
    cases f.replaced <;> cases clear <;> rfl

theorem mismatchCollides : Clause.MismatchCollides := by
  intro s f heard hready hsending hand hdiffers hcollide hgiveUp
  rw [exec_echoCheck hready hsending hand, checkEcho_differs hdiffers]
  exact ⟨fun hheld => congrArg Host.Outcome.next (collide_backsOff hand hcollide hheld),
    fun hheld => congrArg Host.Outcome.next (collide_givesUp hcollide hgiveUp hheld)⟩

/-- Settles O44: the check compares the character heard with the one being sent. -/
theorem echoCheckGoesOnOrEndsTheSend : Obligations.EchoCheckGoesOnOrEndsTheSend :=
  ⟨matchingEchoGoesOnOrSucceeds, mismatchCollides⟩

end Sys2Proof.ReportsAndEchoes

/-! PROOF. A break's hush at every block (sections 4.6, 8.5, 9.5 and 10.4). -/

namespace Sys2Proof.Hush

open Sys2Proof.Machine Sys2Proof.ReportsAndEchoes

/-! ### The send that the break overtakes (R174) -/

/-- What a break finds of a send: none under way, or one that ends as a collision, with how often COLLIDE and GIVEUP
are counted for it and what it leaves of the REPORT slot. -/
def EndedSend (s : State) (collided gaveUp : Nat) (keptReport : Option Bool) : Prop :=
  (s.line.transmitter ≠ .sending ∧ collided = 0 ∧ gaveUp = 0 ∧ keptReport = s.line.reportSlot) ∨
    (s.line.transmitter = .sending ∧ collided = 1 ∧ ∃ f, s.line.frameInHand = some f ∧
      ((heldCollisions f s.line + 1 < 8 ∧ gaveUp = 0 ∧ keptReport = s.line.reportSlot) ∨
        (8 ≤ heldCollisions f s.line + 1 ∧ gaveUp = 1 ∧
          keptReport = if f.content.slot = .report ∧ f.replaced = false then none else s.line.reportSlot)))

section
variable {s : State} {collided gaveUp : Nat} {keptReport : Option Bool}

theorem endSendForBreak_of_not_sending (h : s.line.transmitter ≠ .sending) : s.endSendForBreak = s := by
  unfold State.endSendForBreak
  split
  · next hsending _ => exact absurd hsending h
  · rfl

theorem endSendForBreak_of_sending {f : FrameInHand} (h : s.line.transmitter = .sending)
    (hand : s.line.frameInHand = some f) : s.endSendForBreak = s.collide f := by
  simp only [State.endSendForBreak, h, hand]

/-- Of the line controller after the send's end the hush keeps the REPORT slot and the clash flag alone. -/
theorem endSendForBreak_eq (hcollide : s.counters.collide ≤ 65535) (hgiveUp : s.counters.giveUp ≤ 65535)
    (h : EndedSend s collided gaveUp keptReport) : ∃ l : LineControl,
      l.reportSlot = keptReport ∧ l.clash = s.line.clash ∧ s.endSendForBreak = { s with
        line := l
        counters := { s.counters with
          collide := min 65535 (s.counters.collide + collided), giveUp := min 65535 (s.counters.giveUp + gaveUp) } } := by
  rcases h with ⟨hidle, rfl, rfl, rfl⟩ | ⟨hsending, rfl, f, hand, ⟨hheld, rfl, rfl⟩ | ⟨hheld, rfl, rfl⟩⟩
  · refine ⟨s.line, rfl, rfl, ?_⟩
    rw [endSendForBreak_of_not_sending hidle, Nat.add_zero, Nat.add_zero, Nat.min_eq_right hcollide,
      Nat.min_eq_right hgiveUp]
  · refine ⟨backedOff f s.line, rfl, rfl, ?_⟩
    rw [endSendForBreak_of_sending hsending hand, collide_backsOff hand hcollide hheld,
      show min 65535 (s.counters.giveUp + 0) = s.counters.giveUp from Nat.min_eq_right hgiveUp]
  · refine ⟨givenUp f s.line, rfl, rfl, ?_⟩
    rw [endSendForBreak_of_sending hsending hand, collide_givesUp hcollide hgiveUp hheld]

end

/-! ### The blocks -/

/-- The line controller in BREAK, with the empty record in the CLAIM slot (R124, R164, R174). -/
def hushedLine (own : StationId) (reportSlot : Option Bool) (clash : Bool) : LineControl where
  receiver := .breaking
  rx := .space
  spaceRun := 40
  idle := 0
  transmitter := if clash = false ∨ reportSlot.isSome = true then .deferring else .idle
  frameInHand := none
  echo := []
  claimSlot := some { live := none, entries := [] }
  reportSlot := reportSlot
  collisions := 0
  collisionSlot := none
  lastSender := own
  clash := clash

theorem breakLine_hushes (own : StationId) (l : LineControl) :
    ((l.breakLine own).placeClaim emptyRecord).settleTransmitter = hushedLine own l.reportSlot l.clash := by
  have hplaced := LineControl.placeClaim_placed (l.breakLine own) emptyRecord
  rw [LineControl.ClaimPlaced] at hplaced
  rw [hplaced, settleTransmitter_eq]
  simp only [LineControl.breakLine, hushedLine, emptyRecord, Option.isSome_some, true_and, Option.map_none]

/-- An analysis in flight is abandoned (R32). -/
def hushedTracker : Tracker → Tracker
  | .analysing _ => .waiting
  | tracker => tracker

/-- The running job after a hush: the segment of an abandoned analysis and a FETCH are discarded, and a PLACE schedules
nothing (R32, R142, R145, R157). -/
def hushedRunning (tracker : Tracker) (r : Running) : Running :=
  match r.job with
  | .analysis _ _ => { r with fate := match tracker with | .analysing _ => .discarded | _ => r.fate }
  | .fetch _ _ _ => { r with fate := .discarded }
  | .place _ _ _ => { r with fate := match r.fate with | .live => .addsOnly | .dropped => .discarded | fate => fate }

/-- The state after a hush, once a send has ended and HUSH is counted (R164). -/
def hushed (s : State) : State :=
  { s with
    line := hushedLine s.straps.id s.line.reportSlot s.line.clash
    tracker := hushedTracker s.tracker
    marks := []
    coverEnd := none
    coverFar := false
    follower := .rest
    scenes := { s.scenes with pending := none }
    claimQueue := []
    map := []
    alloc :=
      { voices := Quad.const clearedVoice, record := { live := none, entries := [] }, lastSent := s.alloc.lastSent,
        sinceSend := s.alloc.sinceSend, sincePlacement := 0 }
    channels := Quad.ofFn fun v => (s.channel v).hush
    arbiter := { list := [], running := s.arbiter.running.map (hushedRunning s.tracker) } }

/-- With no analysis in flight the running segment, of one withdrawn before, keeps its fate. -/
theorem hush_of_idle {tracker : Tracker} (h : ¬ ∃ a, tracker = .analysing a) (a : Arbiter) :
    a.hush = { list := [], running := a.running.map (hushedRunning tracker) } := by
  refine congrArg (Arbiter.mk · []) (congrArg (Option.map · a.running) (funext fun r => ?_))
  obtain ⟨job, fate⟩ := r
  cases job
  case analysis =>
    cases tracker
    case analysing a => exact absurd ⟨a, rfl⟩ h
    all_goals cases fate <;> rfl
  all_goals cases fate <;> rfl

/-- With one in flight the abandonment discards the running segment, and the hush keeps that. -/
theorem hush_of_withdrawn (analysis : Analysis) (a : Arbiter) :
    a.withdrawAnalysis.hush = { list := [], running := a.running.map (hushedRunning (.analysing analysis)) } := by
  refine congrArg (Arbiter.mk · []) ((Option.map_map ..).trans (congrArg (Option.map · a.running) (funext fun r => ?_)))
  obtain ⟨job, fate⟩ := r
  cases job <;> cases fate <;> rfl

/-- The tracker and the arbiter, where the hush has abandoned the analysis before it takes the jobs. -/
theorem hush_abandons (s : State) :
    s.abandonAnalysis.tracker = hushedTracker s.tracker ∧
    s.abandonAnalysis.arbiter.hush = { list := [], running := s.arbiter.running.map (hushedRunning s.tracker) } := by
  rcases htracker : s.tracker with _ | _ | _ | a
  case analysing =>
    simp only [State.abandonAnalysis, htracker]
    exact ⟨rfl, hush_of_withdrawn a s.arbiter⟩
  all_goals
    simp only [State.abandonAnalysis, htracker]
    exact ⟨rfl, hush_of_idle (by rintro ⟨_, ⟨⟩⟩) s.arbiter⟩

/-- An abandonment touches the tracker and the arbiter alone, whatever the line is. -/
theorem abandonAnalysis_setLine (s : State) (l : LineControl) : (s.setLine l).abandonAnalysis =
    { s with line := l, tracker := s.abandonAnalysis.tracker, arbiter := s.abandonAnalysis.arbiter } := by
  simp only [State.abandonAnalysis, State.setLine]
  cases h : s.tracker <;> simp only [h]

theorem takeHush_eq (s : State) : s.takeHush = hushed (s.endSendForBreak.bump .hush) := by
  simp only [State.takeHush]
  generalize s.endSendForBreak.bump .hush = u
  obtain ⟨htracker, harbiter⟩ := hush_abandons u
  rw [hushed, ← breakLine_hushes, ← htracker, ← harbiter, State.hushListeners, abandonAnalysis_setLine]
  rfl

section
variable {c : Channel}

theorem channel_hush_rests (h : c.state = .off ∨ c.state = .parked) : c.hush = c := by
  rw [Channel.hush]
  rcases h with h | h <;> rw [h] <;> rfl

theorem channel_hush_leaves (hoff : c.state ≠ .off) (hparked : c.state ≠ .parked) : c.hush =
    { c with state := .leaving, leaveRate := 4, next := .empty, placementPoint := none, cycleRunning := false } := by
  cases h : c.state
  case off => exact absurd h hoff
  case parked => exact absurd h hparked
  all_goals simp only [Channel.hush, Channel.noTarget, h, VoiceState.active, if_true]

end

/-- What becomes of the running job, by its kind and its fate (R145, R157). -/
theorem hushedRunning_by_kind (tracker : Tracker) (r : Running) :
    (r.job.isAnalysis = true → hushedRunning tracker r =
      { r with fate := match tracker with | .analysing _ => .discarded | _ => r.fate }) ∧
    ((∃ o q m, r.job = .fetch o q m) → hushedRunning tracker r = { r with fate := .discarded }) ∧
    ((∃ v g m, r.job = .place v g m) →
      (r.fate = .live → hushedRunning tracker r = { r with fate := .addsOnly }) ∧
      (r.fate = .dropped → hushedRunning tracker r = { r with fate := .discarded }) ∧
      ((r.fate = .addsOnly ∨ r.fate = .discarded) → hushedRunning tracker r = r)) := by
  obtain ⟨job, fate⟩ := r
  refine ⟨fun h => ?_, ?_, ?_⟩
  · cases job
    case analysis => rfl
    all_goals cases h
  · rintro ⟨o, q, m, rfl⟩
    rfl
  · rintro ⟨v, g, m, rfl⟩
    refine ⟨?_, ?_, ?_⟩
    · rintro ⟨⟩
      rfl
    · rintro ⟨⟩
      rfl
    · rintro (⟨⟨⟩⟩ | ⟨⟨⟩⟩) <;> rfl

/-- Settles O45: the send that the break overtakes ends first, HUSH is counted, and then each block's part is written
out. -/
theorem breakHushesTheStation : Obligations.BreakHushesTheStation := by
  intro s hready hbreaking hhush hcollide hgiveUp collided gaveUp keptReport hended
  obtain ⟨l, hreport, hclash, hend⟩ := endSendForBreak_eq hcollide hgiveUp hended
  have hexec : exec .hush s = .next s.takeHush := by
    rw [show exec .hush s = _ from whenReleased_settle hready State.takeBreak, State.takeBreak, if_neg hbreaking]
  have hcount : s.endSendForBreak.bump .hush = { s with
      line := l
      counters := { s.counters with
        hush := min 65535 (s.counters.hush + 1), collide := min 65535 (s.counters.collide + collided),
        giveUp := min 65535 (s.counters.giveUp + gaveUp) } } := by
    rw [hend, State.bump, Counters.bump, satSucc_eq_min _ hhush]
  have hchannel : ∀ v, (Quad.ofFn fun v => (s.channel v).hush).get v = (s.channel v).hush := fun v =>
    Quad.get_ofFn _ v
  refine ⟨_, hexec, ?_⟩
  rw [takeHush_eq, hcount]
  refine ⟨?_, ?_, ?_, fun v => ⟨Quad.get_const _ v, fun hrests => ?_, fun hoff hparked => ?_⟩, ?_, ?_⟩
  · rw [hushed, hreport, hclash]
    rfl
  · rintro ⟨a, ha⟩
    exact congrArg hushedTracker ha
  · intro hidle
    show hushedTracker s.tracker = _
    rcases htracker : s.tracker with _ | _ | _ | a
    case analysing => exact absurd ⟨a, htracker⟩ hidle
    all_goals rfl
  · exact (hchannel v).trans (channel_hush_rests hrests)
  · exact (hchannel v).trans (channel_hush_leaves hoff hparked)
  · intro hfree
    exact congrArg (Option.map (hushedRunning s.tracker)) hfree
  · intro r hr
    have hrunning : s.arbiter.running.map (hushedRunning s.tracker) = some (hushedRunning s.tracker r) := by
      rw [hr, Option.map_some]
    obtain ⟨hanalysis, hfetch, hplace⟩ := hushedRunning_by_kind s.tracker r
    refine ⟨fun h => ?_, fun h => ?_, fun h => ⟨fun hf => ?_, fun hf => ?_, fun hf => ?_⟩⟩
    all_goals refine hrunning.trans (congrArg some ?_)
    · exact hanalysis h
    · exact hfetch h
    · exact (hplace h).1 hf
    · exact (hplace h).2.1 hf
    · exact (hplace h).2.2 hf

end Sys2Proof.Hush

/-! PROOF. Bit times: the loss timer, the line's levels, the receiver and the idle time (sections 1.7, 10.1, 10.3, 10.6
and 10.8). -/

namespace Sys2Proof.BitTimes

open Sys2Proof.Machine Sys2Proof.OwedSteps Sys2Proof.ReportsAndEchoes

/-! ### The edges of ABCLK and the loss timer (R1, R13) -/

/-- A property of the parts that no step but an arrival or a reset moves is kept by every part of a bit time. -/
theorem kept_of_fixed {P : State → Prop} (h : ∀ s t, s.Fixed t → P s → P t) : Kept P where
  perform s o ho := h _ _ ((State.kept_fixed s).perform s o ho (.refl s))
  accept s a := h _ _ ((State.kept_fixed s).accept s a (.refl s))
  sync s ho := h _ _ ((State.kept_fixed s).sync s ho (.refl s))
  loss s ho := h _ _ ((State.kept_fixed s).loss s ho (.refl s))
  segment s ho := h _ _ ((State.kept_fixed s).segment s ho (.refl s))
  expire s ho := h _ _ ((State.kept_fixed s).expire s ho (.refl s))
  fetch s ho := h _ _ ((State.kept_fixed s).fetch s ho (.refl s))
  place s ho := h _ _ ((State.kept_fixed s).place s ho (.refl s))
  frameStart s := h _ _ ((State.kept_fixed s).frameStart s (.refl s))
  startBit s := h _ _ ((State.kept_fixed s).startBit s (.refl s))
  char s c := h _ _ ((State.kept_fixed s).char s c (.refl s))
  returnToMark s := h _ _ ((State.kept_fixed s).returnToMark s (.refl s))
  boundary s := h _ _ ((State.kept_fixed s).boundary s (.refl s))
  hush s := h _ _ ((State.kept_fixed s).hush s (.refl s))
  idle s i hi := h _ _ ((State.kept_fixed s).idle s i hi (.refl s))
  send s := h _ _ ((State.kept_fixed s).send s (.refl s))
  echo s c := h _ _ ((State.kept_fixed s).echo s c (.refl s))
  hear s e he := h _ _ ((State.kept_fixed s).hear s e he (.refl s))
  bits s b hb := h _ _ ((State.kept_fixed s).bits s b hb (.refl s))
  space s := h _ _ ((State.kept_fixed s).space s (.refl s))
  spaceRun s n hn := h _ _ ((State.kept_fixed s).spaceRun s n hn (.refl s))

/-- RESET_N is high and the latched straps are these. -/
def Strapped (straps : StrapPins) (s : State) : Prop := s.resetN = true ∧ s.straps = straps

theorem strapped_kept (straps : StrapPins) : Kept (Strapped straps) :=
  kept_of_fixed fun _ _ h hs => ⟨h.resetN.trans hs.1, h.straps.trans hs.2⟩

theorem strapped_arrival {straps : StrapPins} (s : State) (x : Sample) (_ : s.owed = []) (h : Strapped straps s) :
    Strapped straps { ((State.captureSample x s).trimMarks).positionDue with
      owed := ((State.captureSample x s).trimMarks).positionDue.owedAtArrival } := by
  simp only [Strapped, State.positionDue, State.trimMarks, State.captureSample]
  split <;> exact h

section
variable {s : State}

theorem passEdges_ready (l : List AudioEdge) (h : s.ready) :
    (passEdges l s).ready ∧ (passEdges l s).straps = s.straps := by
  obtain ⟨hreset, howed⟩ := h
  obtain ⟨⟨hreset', hstraps⟩, howed'⟩ := (strapped_kept s.straps).passEdges strapped_arrival (fun _ _ h => h)
    (fun _ _ _ _ h => h) l howed ⟨hreset, rfl⟩
  exact ⟨⟨hreset', howed'⟩, hstraps⟩

theorem step_empty (h : s.ready) (hpending : s.pending = []) :
    step s = .next (State.passLine (State.passTimer
      (passEdges (s.audioIn.headD []) { s with audioIn := s.audioIn.tail }))) := by
  obtain ⟨hreset, howed⟩ := h
  have hbit : s.passBitTime = s.passAudio.passTimer.passLine := by
    rw [State.passBitTime, if_pos hreset, State.settle_of_nil howed]
  unfold step
  split
  · exact congrArg Host.Outcome.next hbit
  · next hcons => rw [hpending] at hcons; cases hcons

theorem exec_lossOfAudio (h : s.ready) : exec .lossOfAudio s = .next s.takeLoss :=
  whenReleased_settle h State.takeLoss

end

theorem bitTimeTakesTheEdgesThenTheLossTimer : Clause.BitTimeTakesTheEdgesThenTheLossTimer := by
  intro s h hpending
  have hready : ({ s with audioIn := s.audioIn.tail } : State).ready := h
  obtain ⟨hu, hstraps⟩ := passEdges_ready (s.audioIn.headD []) hready
  have hstep := step_empty h hpending
  refine ⟨_, rfl, fun hnone => ?_, ?_⟩
  · rw [hnone]
    exact congrArg (fun l => { s with audioIn := l }) hnone.symm
  generalize passEdges (s.audioIn.headD []) { s with audioIn := s.audioIn.tail } = u at hu hstraps hstep ⊢
  refine ⟨fun hnone => ?_, fun n hn => ?_⟩
  · rw [hstep, State.passTimer, hnone]
  · have hperiods : bitPeriods u.straps.rate = if s.straps.rate = 0 then 24 else 96 := by rw [hstraps]; rfl
    have htimer : u.passTimer = if 24000 ≤ n + (if s.straps.rate = 0 then 24 else 96) then u.takeLoss
        else { u with audio := { u.audio with lossTimer := some (n + if s.straps.rate = 0 then 24 else 96) } } := by
      simp only [State.passTimer, hn, hperiods]
    rw [hstep, htimer]
    intro n2
    refine ⟨fun hbelow => ?_, fun hreached => ⟨_, exec_lossOfAudio hu, ?_⟩⟩
    · rw [if_neg (Nat.not_le.2 hbelow)]
    · rw [if_pos hreached]

/-! ### The level and what hears it (R158, R161, R164, R171) -/

theorem bitTimeTakesTheLineLevel : Clause.BitTimeTakesTheLineLevel := by
  intro s
  have hown : s.lineIn = [] → ({ s with lineIn := s.lineIn.tail } : State) = s := fun h =>
    congrArg (fun l => { s with lineIn := l }) (by rw [h]; rfl)
  refine ⟨fun b rest h => ?_, fun h hsending => ?_, fun h hidle => ⟨fun hrx => ?_, fun hrx => ?_, fun bits hrx => ?_⟩⟩
  · simp only [State.passLine, State.lineLevel, h, List.tail_cons]
  · have hlevel : s.lineLevel = some s.lineTx := by
      simp only [State.lineLevel, h, LineControl.de, hsending, decide_true, if_true]
      rfl
    simp only [State.passLine, hlevel, hown h]
  all_goals
    have hde : s.line.de = false := decide_eq_false hidle
    have hlevel : s.lineLevel = match s.line.rx with | .mark => some true | .space => some false | .character _ => none := by
      simp only [State.lineLevel, h, hde]
      rfl
    simp only [State.passLine, hlevel, hrx, hown h]

section
variable {s : State}

theorem takeEcho_spaceRun (s : State) (heard : Option Byte) : (s.takeEcho heard).line.spaceRun = s.line.spaceRun := by
  have hsuccess : ∀ f k, ((s.setLine ((LineControl.emptySlot f { s.line with
      lastSender := s.straps.id, collisions := 0, collisionSlot := none, frameInHand := none,
      echo := [] }).settleTransmitter)).reportSuccess k).line.spaceRun = s.line.spaceRun := fun f k => by
    rw [emptySlot_eq, settleTransmitter_eq]
    cases k with
    | claim r => rfl
    | report clear => cases clear <;> rfl
  have hcollide : ∀ f, (s.collide f).line.spaceRun = s.line.spaceRun := fun f => by
    simp only [State.collide, emptySlot_eq, settleTransmitter_eq]
    generalize (if s.line.collisionSlot = some f.content.slot then s.line.collisions else 0) = held
    split <;> rfl
  unfold State.takeEcho State.checkEcho
  split
  · split
    · split
      · rfl
      · exact hsuccess _ _
    · exact hcollide _
  · rfl

theorem hearBit_of_not_sending (h : s.line.transmitter ≠ .sending) (b : Bool) : s.hearBit b = s :=
  if_neg fun hde => h (of_decide_eq_true hde)

theorem hearBit_of_sending (h : s.line.transmitter = .sending) (b : Bool) : s.hearBit b =
    if s.line.echo.length < 9 then s.setLine { s.line with echo := s.line.echo ++ [b] }
    else s.takeEcho (heardChar (s.line.echo ++ [b])) :=
  if_pos (decide_eq_true h)

theorem hearBit_spaceRun (s : State) (b : Bool) : (s.hearBit b).line.spaceRun = s.line.spaceRun := by
  by_cases h : s.line.transmitter = .sending
  · rw [hearBit_of_sending h]
    split
    · rfl
    · exact takeEcho_spaceRun s _
  · rw [hearBit_of_not_sending h]

theorem satSucc_breakRun {n : Nat} (h : n ≤ 40) : satSucc Config.breakRun n = min 40 (n + 1) := by
  unfold satSucc Config.breakRun
  split <;> omega

theorem breakTest_eq (s : State) : s.breakTest = if 40 ≤ s.line.spaceRun then s.takeBreak else s := rfl

/-- A bit time of the line: heard, counted, received, and tested for a break (R158, R161). -/
theorem lineBit_eq (h : s.line.spaceRun ≤ 40) (b : Bool) : s.lineBit b = State.breakTest (State.receiveBit b
    { s.hearBit b with line := { (s.hearBit b).line with
      spaceRun := if b = true then 0 else min 40 (s.line.spaceRun + 1) } }) := by
  rw [← satSucc_breakRun h, ← hearBit_spaceRun s b]
  rfl

end

theorem lineBitIsHeardCountedAndReceived : Clause.LineBitIsHeardCountedAndReceived := by
  intro s b h hrun
  refine ⟨s.hearBit b, s.lineBit b, rfl, fun hidle => hearBit_of_not_sending hidle b, fun hsending hshort => ?_,
    fun hsending hlast => ?_, ?_⟩
  · rw [hearBit_of_sending hsending, if_pos hshort]
    rfl
  · rw [hearBit_of_sending hsending, if_neg (by omega)]
    exact whenReleased_settle h fun s => s.takeEcho _
  intro run received
  have hline : s.lineBit b = received.breakTest := lineBit_eq hrun b
  have hreset : received.resetN = true :=
    (strapped_kept s.straps).receiveBit b (s := { s.hearBit b with line := { (s.hearBit b).line with spaceRun := run } })
      ((strapped_kept s.straps).hearBit b ⟨h.1, rfl⟩) |>.1
  rw [hline, breakTest_eq]
  refine ⟨fun hshort => if_neg (Nat.not_le.2 hshort), fun hbreak howed => ?_⟩
  rw [if_pos hbreak]
  exact whenReleased_settle ⟨hreset, howed⟩ State.takeBreak

/-! ### The receiver (R158, R159, R161, R163) -/

theorem receiverSamplesEachLevel : Clause.ReceiverSamplesEachLevel := by
  intro s b h
  refine ⟨?_, ?_, ?_, ?_, ?_, ?_, ?_⟩
  · rintro hrx rfl
    simp only [State.receiveBit, hrx]
  · rintro hrx rfl
    simp only [State.receiveBit, hrx, State.findStartBit]
    split
    · exact whenReleased_settle h State.takeFrameStart
    · exact whenReleased_settle h State.takeStartBit
  · intro bits hrx hlength
    simp only [State.receiveBit, hrx, hlength, if_true]
    rfl
  · rintro bits hrx hlength rfl
    simp only [State.receiveBit, hrx, hlength, Nat.lt_irrefl, if_false, if_true]
    exact whenReleased_settle h fun s => s.takeChar _
  · rintro bits hrx hlength rfl
    simp only [State.receiveBit, hrx, hlength, Nat.lt_irrefl, if_false]
    rfl
  · rintro hrx rfl
    refine ⟨s.takeReturnToMark, whenReleased_settle h State.takeReturnToMark, ?_⟩
    simp only [State.receiveBit, hrx]
  · rintro hrx rfl
    simp only [State.receiveBit, hrx]

/-! ### The idle time (R159, R166, R170) -/

section
variable {s : State}

theorem gap_eq (own : StationId) (l : LineControl) : l.gap own =
    if l.transmitter = .deferring then some (rotatingGap own l.lastSender)
    else if l.transmitter = .backoff then some (backoffGap own) else none := by
  rw [LineControl.gap]
  cases l.transmitter <;> rfl

theorem satSucc_maxIdle {n : Nat} (h : n ≤ 74) : satSucc Config.maxIdle n = min 74 (n + 1) := by
  unfold satSucc Config.maxIdle
  split <;> omega

/-- Where the gap is reached with the receiver READY at mark, the test begins the send that SEND_START begins (R170). -/
theorem sendStart_at_gap {g : Nat} (hready : s.ready) (hgap : s.line.gap s.straps.id = some g) (hreached : g ≤ s.line.idle)
    (hreceiver : s.line.receiver = .ready) (hrx : s.line.rx = .mark) (hidle : s.line.idle ≤ 74) :
    exec .sendStart s = .next s.gapTest := by
  have hstart : startSend s = s.beginSend := by
    have hmax : min Config.maxIdle (max s.line.idle g) = s.line.idle := by
      rw [Nat.max_eq_left hreached]
      exact Nat.min_eq_right hidle
    rw [startSend, hgap, Option.getD_some, hmax]
    rfl
  rw [exec_sendStart hready, takeSendStart_eq ⟨g, hgap⟩ ((LineControl.mayIdle_iff _).2 (.inl hrx)),
    passBoundary_of_ready hreceiver, hstart]
  simp only [State.gapTest, hgap, hreached, if_true]

theorem gapTest_waits (h : ∀ g, s.line.gap s.straps.id = some g → s.line.idle < g) : s.gapTest = s := by
  unfold State.gapTest
  split
  · next g hg => exact if_neg (Nat.not_le.2 (h g hg))
  · rfl

end

theorem idleBitTimeBringsTheBoundaryThenTheGap : Clause.IdleBitTimeBringsTheBoundaryThenTheGap := by
  intro s h hrx hidle
  have hnext := satSucc_maxIdle hidle
  obtain ⟨u, hu⟩ : ∃ u, u = if min 74 (s.line.idle + 1) = 12 then
      (State.takeBoundary { s with line := { s.line with idle := min 74 (s.line.idle + 1) } }).settle
    else { s with line := { s.line with idle := min 74 (s.line.idle + 1) } } := ⟨_, rfl⟩
  have hpass : s.passIdle = u.gapTest := by
    rw [hu]
    simp only [State.passIdle, hnext]
    rfl
  have hready : u.ready := by
    obtain ⟨hreset, howed⟩ := h
    rw [hu]
    split
    · have hboundary := (strapped_kept s.straps).boundary
        { s with line := { s.line with idle := min 74 (s.line.idle + 1) } } ⟨hreset, rfl⟩
      exact ⟨((strapped_kept s.straps).settle hboundary).1, State.settle_owed _⟩
    · exact ⟨hreset, howed⟩
  refine ⟨u, fun hne => ?_, fun heq => ?_, ?_⟩
  · rw [hu, if_neg (by omega)]
  · have hmin : min 74 (s.line.idle + 1) = 12 := by omega
    rw [hmin, if_pos rfl] at hu
    exact ⟨_, whenReleased_settle (s := { s with line := { s.line with idle := 12 } }) h State.takeBoundary, hu⟩
  · rw [hpass, ← gap_eq]
    exact ⟨fun g hgap hreached hreceiver hmark hbound => sendStart_at_gap hready hgap hreached hreceiver hmark hbound,
      gapTest_waits⟩

/-! ### A character bit by bit (R158, R171) -/

/-- A character's data bits, least significant first. -/
def dataBits (c : Byte) : List Bool :=
  [c.getLsbD 0, c.getLsbD 1, c.getLsbD 2, c.getLsbD 3, c.getLsbD 4, c.getLsbD 5, c.getLsbD 6, c.getLsbD 7]

theorem charOf_dataBits : ∀ c : Byte, charOf (dataBits c) = c := by
  decide

theorem detectorNeedsStartAndStopBits : Clause.DetectorNeedsStartAndStopBits := by
  intro c start stop
  cases start
  · cases stop
    · rfl
    · exact (if_pos ⟨rfl, rfl⟩).trans (congrArg some (charOf_dataBits c))
  · rfl

/-- The receiver inside a character: some data bits sampled, the space run at a count. -/
def inCharacter (t : State) (bits : List Bool) (run : Nat) : State :=
  { t with line := { t.line with rx := .character bits, spaceRun := run } }

section
variable {s t : State}

/-- A station that is not sending only counts and receives a level, short of a break. -/
theorem lineBit_received {r : State} (hidle : s.line.transmitter ≠ .sending) (hrun : s.line.spaceRun ≤ 40) {b : Bool}
    (hr : r = State.receiveBit b
      { s with line := { s.line with spaceRun := if b = true then 0 else min 40 (s.line.spaceRun + 1) } })
    (hbreak : r.line.spaceRun < 40) : s.lineBit b = r := by
  rw [lineBit_eq hrun, hearBit_of_not_sending hidle, ← hr, breakTest_eq, if_neg (Nat.not_le.2 hbreak)]

/-- The receiver after a start bit: in READY a frame begins (R161). -/
def receiverAtStart (s : State) : Receiver :=
  if s.line.receiver = .ready then .receiving [] s.clock (decide (s.line.transmitter = .sending)) else s.line.receiver

theorem findStartBit_eq (h : s.line.receiver ≠ .breaking) : s.findStartBit =
    { s with line := { s.line with rx := .character [], idle := 0, receiver := receiverAtStart s } } := by
  by_cases hready : s.line.receiver = .ready
  · simp only [State.findStartBit, State.takeFrameStart, receiverAtStart, hready, if_true]
    rfl
  · have hstart : s.takeStartBit = s.setLine s.line.startBit := by
      unfold State.takeStartBit
      split
      · next hr => exact absurd hr hready
      · next hr => exact absurd hr h
      all_goals rfl
    rw [State.findStartBit, if_neg hready, hstart, receiverAtStart, if_neg hready]
    rfl

theorem lineBit_startBit (h : s.ready) (hrx : s.line.rx = .mark) (hrun : s.line.spaceRun = 0)
    (hreceiver : s.line.receiver ≠ .breaking) (hidle : s.line.transmitter ≠ .sending) :
    exec (if s.line.receiver = .ready then .frameStart else .startBit) s = .next s.findStartBit ∧
      s.lineBit false = inCharacter s.findStartBit [] 1 := by
  refine ⟨?_, lineBit_received hidle (by omega) ?_ (show 1 < 40 by decide)⟩
  · unfold State.findStartBit
    split
    · exact whenReleased_settle h State.takeFrameStart
    · exact whenReleased_settle h State.takeStartBit
  · have hreceive : State.receiveBit false { s with line := { s.line with spaceRun := 1 } } =
        State.findStartBit { s with line := { s.line with spaceRun := 1 } } := by
      simp only [State.receiveBit, hrx]
    have hone : (if false = true then 0 else min 40 (s.line.spaceRun + 1)) = 1 := by rw [hrun]; rfl
    rw [hone, hreceive, findStartBit_eq hreceiver,
      findStartBit_eq (s := { s with line := { s.line with spaceRun := 1 } }) hreceiver]
    rfl

theorem lineBit_data {bits : List Bool} {run : Nat} (hidle : t.line.transmitter ≠ .sending) (hlength : bits.length < 8)
    (hrun : run < 39) (b : Bool) :
    ∃ run2 ≤ run + 1, (inCharacter t bits run).lineBit b = inCharacter t (bits ++ [b]) run2 := by
  refine ⟨if b = true then 0 else min 40 (run + 1), ?_, lineBit_received (s := inCharacter t bits run) hidle
    (by show run ≤ 40; omega) ?_ ?_⟩
  · split <;> omega
  · simp only [State.receiveBit, inCharacter, hlength, if_true]
    rfl
  · show (if b = true then 0 else min 40 (run + 1)) < 40
    split <;> omega

theorem lineBits_data (hidle : t.line.transmitter ≠ .sending) : ∀ (l bits : List Bool) (run : Nat),
    bits.length + l.length ≤ 8 → run + l.length < 40 →
    ∃ run2 < 40, l.foldl (fun s b => s.lineBit b) (inCharacter t bits run) = inCharacter t (bits ++ l) run2
  | [], bits, run, _, hrun => ⟨run, hrun, by rw [List.append_nil]; rfl⟩
  | b :: l, bits, run, hlength, hrun => by
    simp only [List.length_cons] at hlength hrun
    obtain ⟨run2, hle, hbit⟩ := lineBit_data hidle (bits := bits) (run := run) (by omega) (by omega) b
    obtain ⟨run3, hlt, hrest⟩ := lineBits_data hidle l (bits ++ [b]) run2
      (by rw [List.length_append, List.length_singleton]; omega) (by omega)
    refine ⟨run3, hlt, ?_⟩
    rw [List.foldl_cons, hbit, hrest, List.append_assoc, List.singleton_append]

theorem takeChar_spaceRun (s : State) (c : Byte) : (s.takeChar c).line.spaceRun = 0 := by
  simp only [State.takeChar]
  split
  · unfold State.appendChar
    split <;> rfl
  all_goals rfl

theorem lineBit_stopBit {bits : List Bool} {run : Nat} (hidle : t.line.transmitter ≠ .sending) (hlength : bits.length = 8)
    (hrun : run < 40) : (inCharacter t bits run).lineBit true = t.takeChar (charOf bits) := by
  refine lineBit_received (s := inCharacter t bits run) hidle (Nat.le_of_lt hrun) ?_ (by rw [takeChar_spaceRun]; decide)
  simp only [State.receiveBit, inCharacter, hlength, Nat.lt_irrefl, if_false, if_true]
  rfl

/-- The levels of a character from its data bits on (R158). -/
theorem lineBits_character (hidle : t.line.transmitter ≠ .sending) (c : Byte) :
    (dataBits c ++ [true]).foldl (fun s b => s.lineBit b) (inCharacter t [] 1) = t.takeChar c := by
  obtain ⟨run, hlt, hdata⟩ := lineBits_data hidle (dataBits c) [] 1 (le_refl 8) (show 9 < 40 by decide)
  have hstop := lineBit_stopBit hidle (bits := dataBits c) rfl hlt
  rw [charOf_dataBits] at hstop
  rw [List.foldl_append, hdata]
  exact hstop

end

theorem tenBitTimesReceiveACharacter : Clause.TenBitTimesReceiveACharacter := by
  intro c s h hrx hrun hreceiver hidle
  obtain ⟨hexec, hstart⟩ := lineBit_startBit h hrx hrun hreceiver hidle
  have hfound := findStartBit_eq hreceiver
  have hready : s.findStartBit.ready := hfound ▸ h
  have hidle' : s.findStartBit.line.transmitter ≠ .sending := hfound ▸ hidle
  generalize s.findStartBit = t at hexec hstart hready hidle'
  have hlist : [false, c.getLsbD 0, c.getLsbD 1, c.getLsbD 2, c.getLsbD 3, c.getLsbD 4, c.getLsbD 5, c.getLsbD 6,
      c.getLsbD 7, true] = false :: (dataBits c ++ [true]) := rfl
  refine ⟨t, t.takeChar c, hexec, whenReleased_settle hready fun s => s.takeChar c, ?_⟩
  rw [hlist, List.foldl_cons, hstart, lineBits_character hidle']

/-- Settles O46: a bit time's parts in their order, and ten of them for a character. -/
theorem bitTimesMoveTheTimerAndTheLine : Obligations.BitTimesMoveTheTimerAndTheLine :=
  ⟨bitTimeTakesTheEdgesThenTheLossTimer, bitTimeTakesTheLineLevel, lineBitIsHeardCountedAndReceived,
    receiverSamplesEachLevel, idleBitTimeBringsTheBoundaryThenTheGap, tenBitTimesReceiveACharacter,
    detectorNeedsStartAndStopBits⟩

end Sys2Proof.BitTimes

/-! PROOF. Frames and their check, and the CLAIM's layout (sections 11.1 to 11.3). -/

namespace Sys2Proof.Frames

open Sys2Proof.Machine

/-! ### The outer form and the check (R166, R176, R177) -/

theorem twoChars_extract (x : BitVec 16) : twoChars x = [x.extractLsb' 8 8, x.extractLsb' 0 8] := by
  have hhigh : (x >>> 8).setWidth 8 = x.extractLsb' 8 8 := by
    apply BitVec.eq_of_toNat_eq
    simp only [BitVec.toNat_setWidth, BitVec.toNat_ushiftRight, BitVec.extractLsb'_toNat]
  have hlow : x.setWidth 8 = x.extractLsb' 0 8 := by
    apply BitVec.eq_of_toNat_eq
    simp only [BitVec.toNat_setWidth, BitVec.extractLsb'_toNat, Nat.shiftRight_zero]
  rw [twoChars, hhigh, hlow]

theorem isWhole_iff (h l : Byte) (rest : List Byte) : isWhole (h :: l :: rest) = true ↔
    (h :: l :: rest).length = l.toNat + 4 ∧ (h :: l :: rest).drop ((h :: l :: rest).length - 2) =
      twoChars (crc ((h :: l :: rest).take ((h :: l :: rest).length - 2))) := by
  simp only [isWhole, Bool.and_eq_true, decide_eq_true_eq]

theorem wholeFramesHaveTheirLengthAndCheck : Clause.WholeFramesHaveTheirLengthAndCheck := by
  refine ⟨fun chars h => ?_, fun h l rest => ?_⟩
  · rcases chars with _ | ⟨a, _ | ⟨b, rest⟩⟩
    · rfl
    · rfl
    · simp only [List.length_cons] at h
      omega
  · intro chars check
    rw [isWhole_iff, twoChars_extract]

theorem checkOfTheNineDigits : Clause.CheckOfTheNineDigits := by
  unfold Clause.CheckOfTheNineDigits
  decide +kernel

/-- The characters of a frame before its check. -/
def frameBody (h : Byte) (payload : List Byte) : List Byte := h :: BitVec.ofNat 8 payload.length :: payload

section
variable (h : Byte) {payload : List Byte} (x y : Byte)

theorem frameBody_length : (frameBody h payload).length = payload.length + 2 := rfl

/-- A body with two characters after it is whole exactly where they are its check. -/
theorem isWhole_body (hlength : payload.length ≤ 60) :
    isWhole (frameBody h payload ++ [x, y]) = true ↔ [x, y] = twoChars (crc (frameBody h payload)) := by
  have hlast : (frameBody h payload ++ [x, y]).length - 2 = (frameBody h payload).length := by
    rw [List.length_append]
    rfl
  have hbyte : (BitVec.ofNat 8 payload.length).toNat = payload.length := by
    rw [BitVec.toNat_ofNat]
    omega
  have hcount : (frameBody h payload ++ [x, y]).length = (BitVec.ofNat 8 payload.length).toNat + 4 := by
    rw [hbyte, List.length_append, frameBody_length]
    rfl
  have hiff := isWhole_iff h (BitVec.ofNat 8 payload.length) (payload ++ [x, y])
  rw [show h :: BitVec.ofNat 8 payload.length :: (payload ++ [x, y]) = frameBody h payload ++ [x, y] from rfl, hlast,
    List.drop_left, List.take_left] at hiff
  rw [hiff, and_iff_right hcount]

end

theorem buildFrame_eq (kind : Nat) (id : StationId) (payload : List Byte) :
    buildFrame kind id payload = frameBody (header kind id) payload ++
      [(crc (frameBody (header kind id) payload)).extractLsb' 8 8,
        (crc (frameBody (header kind id) payload)).extractLsb' 0 8] := by
  rw [← twoChars_extract]
  rfl

section
variable {kind : Nat} {id : StationId} {payload : List Byte}

theorem header_toNat (hkind : kind < 16) : (header kind id).toNat = 16 * kind + id.toNat := by
  have hid := id.isLt
  rw [header, BitVec.toNat_ofNat]
  omega

theorem headerKind_header (hkind : kind < 16) : headerKind (header kind id) = kind := by
  have hid := id.isLt
  rw [headerKind, header_toNat hkind]
  omega

theorem headerSender_header (hkind : kind < 16) : headerSender (header kind id) = id := by
  have hid := id.isLt
  apply BitVec.eq_of_toNat_eq
  rw [headerSender, BitVec.toNat_setWidth, header_toNat hkind]
  omega

theorem buildFrame_whole (hlength : payload.length ≤ 60) : isWhole (buildFrame kind id payload) = true := by
  rw [buildFrame_eq, isWhole_body _ _ _ hlength, twoChars_extract]

theorem buildFrame_length : (buildFrame kind id payload).length = payload.length + 4 := by
  rw [buildFrame_eq, List.length_append]
  rfl

theorem payloadOf_buildFrame : payloadOf (buildFrame kind id payload) = payload := by
  rw [payloadOf, buildFrame_length, Nat.add_sub_cancel]
  exact List.take_left

/-- With another last character the check disagrees. -/
theorem buildFrame_changed (hlength : payload.length ≤ 60) {c : Byte}
    (hc : some c ≠ (buildFrame kind id payload).getLast?) :
    isWhole ((buildFrame kind id payload).dropLast ++ [c]) = false := by
  rw [buildFrame_eq] at hc ⊢
  rw [List.getLast?_append_of_ne_nil _ (by simp)] at hc
  rw [List.dropLast_append_of_ne_nil (by simp), List.append_assoc, ← Bool.not_eq_true]
  refine fun hwhole => hc ?_
  have hcheck := (isWhole_body _ _ _ hlength).1 hwhole
  rw [twoChars_extract, List.cons.injEq, List.cons.injEq] at hcheck
  exact congrArg some hcheck.2.1

end

theorem builtFramesAreWhole : Clause.BuiltFramesAreWhole := by
  intro kind id payload hkind hlength
  exact ⟨buildFrame_whole hlength, payloadOf_buildFrame, buildFrame_length,
    ⟨_, _, rfl, headerKind_header hkind, headerSender_header hkind⟩, fun c => buildFrame_changed hlength⟩

/-- Settles O48: what makes a frame whole, and the frames built to it. -/
theorem framesPassTheCheck : Obligations.FramesPassTheCheck :=
  ⟨builtFramesAreWhole, wholeFramesHaveTheirLengthAndCheck, checkOfTheNineDigits⟩

/-! ### CLAIM (R92, R100, R119, R178) -/

theorem voiceBits_toNat (v : Voice) (doubled : Bool) :
    (voiceBits v doubled).toNat = v.index + if doubled = true then 128 else 0 := by
  cases v <;> cases doubled <;> rfl

theorem ofBits_index : ∀ b : Byte, (Voice.ofBits (b.setWidth 2)).index = b.toNat % 4 := by
  decide

theorem ofBits_voiceBits (v : Voice) (doubled : Bool) : Voice.ofBits ((voiceBits v doubled).setWidth 2) = v := by
  cases v <;> cases doubled <;> rfl

theorem voiceBits_doubled (v : Voice) (doubled : Bool) : (voiceBits v doubled).getLsbD 7 = doubled := by
  cases v <;> cases doubled <;> rfl

theorem voiceBits_unused (v : Voice) (doubled : Bool) {i : Nat} (hlow : 2 ≤ i) (hhigh : i ≤ 6) :
    (voiceBits v doubled).getLsbD i = false := by
  have hbits : ∀ i : Fin 7, 2 ≤ i.val → (voiceBits v doubled).getLsbD i.val = false := by
    cases v <;> cases doubled <;> decide
  exact hbits ⟨i, by omega⟩ hlow

theorem length_flatMap_three {α : Type} (f : α → List Byte) (hf : ∀ a, (f a).length = 3) (l : List α) :
    (l.flatMap f).length = 3 * l.length := by
  induction l with
  | nil => rfl
  | cons a l ih =>
    rw [List.flatMap_cons, List.length_append, hf, ih, List.length_cons]
    omega

theorem claimItems_flatMap {α : Type} (voice note age : α → Byte) (l : List α) :
    claimItems (l.flatMap fun a => [voice a, note a, age a]) = l.map fun a => claimItem (voice a) (note a) (age a) := by
  induction l with
  | nil => rfl
  | cons a l ih => exact congrArg (claimItem (voice a) (note a) (age a) :: ·) ih

theorem parseClaim_cons (sender : StationId) (live n : Byte) (rest : List Byte) : parseClaim sender (live :: n :: rest) =
    if n.toNat ≤ 4 ∧ rest.length = 3 * n.toNat then some { sender := sender, live := live, items := claimItems rest }
    else none := rfl

/-- A payload of at most four claims parses to them (R178). -/
theorem parseClaim_flatMap {α : Type} (sender : StationId) (live : Byte) (voice note age : α → Byte) {l : List α}
    (h : l.length ≤ 4) :
    parseClaim sender (live :: BitVec.ofNat 8 l.length :: l.flatMap fun a => [voice a, note a, age a]) =
      some { sender := sender, live := live, items := l.map fun a => claimItem (voice a) (note a) (age a) } := by
  have hbyte : (BitVec.ofNat 8 l.length).toNat = l.length := by
    rw [BitVec.toNat_ofNat]
    omega
  rw [parseClaim_cons, hbyte, if_pos ⟨h, length_flatMap_three (fun a => [voice a, note a, age a]) (fun _ => rfl) l⟩,
    claimItems_flatMap]

theorem claimsAreMalformedByTheirLengths : Clause.ClaimsAreMalformedByTheirLengths := by
  intro sender payload
  rcases payload with _ | ⟨live, _ | ⟨n, rest⟩⟩
  · exact iff_of_true rfl (.inl (by decide))
  · exact iff_of_true rfl (.inl (by show 1 < 2; decide))
  · rw [parseClaim_cons]
    have hlength : (live :: n :: rest).length = rest.length + 2 := rfl
    constructor
    · intro hnone
      refine .inr ⟨live, n, rest, rfl, ?_⟩
      split at hnone
      · cases hnone
      · omega
    · rintro (hshort | ⟨live', n', rest', heq, hbad⟩)
      · omega
      · cases heq
        exact if_neg (by omega)

theorem claimItemsStandInTheirPlaces : Clause.ClaimItemsStandInTheirPlaces := by
  intro sender live claims h
  refine ⟨_, parseClaim_flatMap sender live (fun c => c.1) (fun c => c.2.1) (fun c => c.2.2) h, rfl, rfl, ?_⟩
  rw [List.map_map]
  refine List.map_congr_left fun c _ => ?_
  simp only [Function.comp_apply, claimItem, ofBits_index]

theorem claimPayloadIsTheRecord : Clause.ClaimPayloadIsTheRecord := by
  intro r
  refine ⟨fun e => voiceBits e.voice e.doubled, ?_, fun e => ⟨?_, voiceBits_doubled e.voice e.doubled, fun i =>
    voiceBits_unused e.voice e.doubled⟩⟩
  · rw [claimPayload]
    cases r.live <;> rfl
  · rw [voiceBits_toNat]
    have hindex : e.voice.index < 4 := by cases e.voice <;> decide
    split <;> omega

/-- The items of distinct voices with notes in range are all taken (R100). -/
theorem drainedVoices_all (items : List ClaimItem) (hnotes : ∀ i ∈ items, noteInRange i.note = true)
    (hdistinct : items.Pairwise fun a b => a.voice ≠ b.voice) : drainedVoices items = items.map Stage.peerOf := by
  induction items using List.reverseRecOn with
  | nil => rfl
  | append_singleton items i ih =>
    rw [List.pairwise_append] at hdistinct
    obtain ⟨hitems, -, hlast⟩ := hdistinct
    have htaken := ih (fun x hx => hnotes x (List.mem_append_left _ hx)) hitems
    have hfree : ∀ t ∈ items.map Stage.peerOf, t.voice ≠ i.voice := by
      intro t ht
      obtain ⟨x, hx, rfl⟩ := List.mem_map.1 ht
      exact hlast x hx i (List.mem_singleton_self i)
    rw [Stage.drainedVoices_concat, htaken, if_pos ⟨hnotes i (by simp), hfree⟩, List.map_append]
    rfl

section
variable {r : ClaimRecord}

theorem entries_distinct (h : r.sound) : r.entries.Pairwise fun a b => a.voice ≠ b.voice :=
  h.2.1.imp fun hlt heq => absurd (congrArg Voice.index heq) (Nat.ne_of_lt hlt)

/-- The entry that a peer's map holds for an entry of a record (R98). -/
def peerVoiceOf (e : ClaimEntry) : PeerVoice := { voice := e.voice, note := e.note, age := e.age, doubled := e.doubled }

theorem sound_at_most_four (h : r.sound) : r.entries.length ≤ 4 := by
  have hdistinct : (r.entries.map peerVoiceOf).Pairwise fun a b => a.voice ≠ b.voice :=
    List.pairwise_map.2 (entries_distinct h)
  have hlength := ClaimQueue.length_le_four_of_distinct hdistinct
  rwa [List.length_map] at hlength

/-- The item that an entry of a record becomes. -/
def sentItem (e : ClaimEntry) : ClaimItem :=
  claimItem (voiceBits e.voice e.doubled) (BitVec.ofNat 8 e.note) (BitVec.ofNat 8 e.age)

theorem peerOf_sentItem {e : ClaimEntry} (hnote : noteSound e.note) (hage : e.age ≤ 255) : Stage.peerOf (sentItem e) = peerVoiceOf e := by
  obtain ⟨hlow, hhigh⟩ := hnote
  have hnote : (BitVec.ofNat 8 e.note).toNat = e.note := by rw [BitVec.toNat_ofNat]; omega
  have hage : (BitVec.ofNat 8 e.age).toNat = e.age := by rw [BitVec.toNat_ofNat]; omega
  simp only [Stage.peerOf, peerVoiceOf, sentItem, claimItem, ofBits_voiceBits, voiceBits_doubled, hnote, hage]

theorem drainedLive_record (h : ∀ n, r.live = some n → noteSound n) :
    drainedLive (BitVec.ofNat 8 (r.live.getD 0)) = r.live := by
  rw [Stage.drainedLive_eq]
  cases hlive : r.live with
  | none => rfl
  | some n =>
    obtain ⟨hlow, hhigh⟩ := h n hlive
    have hbyte : (BitVec.ofNat 8 n).toNat = n := by rw [BitVec.toNat_ofNat]; omega
    rw [Option.getD_some, hbyte, if_pos ⟨hlow, hhigh⟩]

/-- What a peer's drain makes of a record's claim (R98, R100). -/
theorem drained_record (h : r.sound) (sender : StationId) :
    drainedEntry { sender := sender, live := BitVec.ofNat 8 (r.live.getD 0), items := r.entries.map sentItem } =
      { id := sender, live := r.live, silence := 0, voices := r.entries.map peerVoiceOf } := by
  have hdistinct := entries_distinct h
  obtain ⟨hlive, -, hentries⟩ := h
  have hnotes : ∀ i ∈ r.entries.map sentItem, noteInRange i.note = true := by
    intro i hi
    obtain ⟨e, he, rfl⟩ := List.mem_map.1 hi
    obtain ⟨hlow, hhigh⟩ := (hentries e he).1
    have hbyte : (BitVec.ofNat 8 e.note).toNat = e.note := by rw [BitVec.toNat_ofNat]; omega
    exact Stage.noteInRange_iff.2 ⟨hbyte.symm ▸ hlow, hbyte.symm ▸ hhigh⟩
  have hvoices : (r.entries.map sentItem).Pairwise fun a b => a.voice ≠ b.voice := by
    refine List.pairwise_map.2 (hdistinct.imp fun {a b} hne => ?_)
    show Voice.ofBits _ ≠ Voice.ofBits _
    rwa [ofBits_voiceBits, ofBits_voiceBits]
  have htaken : (r.entries.map sentItem).map Stage.peerOf = r.entries.map peerVoiceOf := by
    rw [List.map_map]
    exact List.map_congr_left fun e he => peerOf_sentItem (hentries e he).1 (hentries e he).2
  rw [drainedEntry, drainedLive_record hlive, drainedVoices_all _ hnotes hvoices, htaken]

end

theorem claimPayload_length (r : ClaimRecord) : (claimPayload r).length = 2 + 3 * r.entries.length := by
  rw [claimPayload, List.length_cons, List.length_cons, length_flatMap_three _ fun _ => rfl]
  omega

theorem claimFrameCarriesItsRecord : Clause.ClaimFrameCarriesItsRecord := by
  intro own peer capture r hr hne chars
  have hfour := sound_at_most_four hr
  have hlength := claimPayload_length r
  have hkind : headerKind (header 1 own) = 1 := headerKind_header (by decide)
  have hsender : headerSender (header 1 own) = own := headerSender_header (by decide)
  have hparse : parseClaim own (claimPayload r) =
      some { sender := own, live := BitVec.ofNat 8 (r.live.getD 0), items := r.entries.map sentItem } :=
    parseClaim_flatMap own _ (fun e : ClaimEntry => voiceBits e.voice e.doubled) (fun e => BitVec.ofNat 8 e.note)
      (fun e => BitVec.ofNat 8 e.age) hfour
  refine ⟨?_, buildFrame_whole (by omega), _, _, _, rfl, header_toNat (by decide), ?_, drained_record hr own⟩
  · show (buildFrame 1 own (claimPayload r)).length = _
    rw [buildFrame_length, hlength]
    omega
  · show routeFrame peer capture (header 1 own) (payloadOf (buildFrame 1 own (claimPayload r))) = _
    rw [payloadOf_buildFrame, routeFrame, hkind, if_pos (show 1 = kindClaim from rfl), hsender, routeClaim, hparse]
    exact if_neg hne

/-- Settles O47: the layout both ways, and a record's frame at a peer. -/
theorem claimsAreLaidOutByTheirRule : Obligations.ClaimsAreLaidOutByTheirRule :=
  ⟨claimFrameCarriesItsRecord, claimsAreMalformedByTheirLengths, claimItemsStandInTheirPlaces, claimPayloadIsTheRecord⟩

end Sys2Proof.Frames

/-! PROOF. What the parts of a command do to the counts of every block: each is left no higher than it was or within its
range (sections 1.6, 7.1, 10.1, 10.8 and 11.5). -/

namespace Sys2Proof.Counts

open Sys2Proof.Machine Sys2Proof.Body Sys2Proof.Decision Sys2Proof.ReportsAndEchoes Sys2Proof.OwedSteps
  Sys2Proof.PassLaws

/-! ### Counts within their ranges or no higher than before -/

/-- R158, R159, R161, R162, R171, R172. -/
structure LineWithin (l l' : LineControl) : Prop where
  idle : l'.idle ≤ max 74 l.idle
  spaceRun : l'.spaceRun ≤ max 40 l.spaceRun
  collisions : l'.collisions ≤ max 7 l.collisions
  received : l'.receiver.count ≤ max 64 l.receiver.count
  sampled : l'.rx.count ≤ max 8 l.rx.count
  heard : l'.echo.length ≤ max 9 l.echo.length

/-- R1, R3, R4, R11, R13. -/
structure AudioWithin (a a' : AudioPort) : Prop where
  fresh : a'.fresh ≤ max 4096 a.fresh
  timer : ∀ n, a'.lossTimer = some n → n < 24000 ∨ a.lossTimer = some n
  taken : ∀ k, a'.inputBits = some k → k ≤ 24 ∨ a.inputBits = some k
  out : ∀ f, a'.out = some f → (f.slots.length = 8 ∧ f.driven ≤ 256) ∨
    ∃ g, a.out = some g ∧ f.slots.length = g.slots.length ∧ f.driven ≤ max 256 g.driven

/-- R110, R113. -/
structure AllocWithin (a a' : Allocator) : Prop where
  sinceSend : a'.sinceSend ≤ max 16 a.sinceSend
  sincePlacement : a'.sincePlacement ≤ max 8 a.sincePlacement
  age : ∀ v : Voice, (a'.voices.get v).age ≤ max 255 (a.voices.get v).age

/-- The counts of the line, the audio ports and the allocator. -/
structure Within (s t : State) : Prop where
  line : LineWithin s.line t.line
  audio : AudioWithin s.audio t.audio
  alloc : AllocWithin s.alloc t.alloc

theorem le_max_trans {b x y z : Nat} (h : y ≤ max b x) (h' : z ≤ max b y) : z ≤ max b x := by omega

theorem LineWithin.refl (l : LineControl) : LineWithin l l :=
  ⟨le_max_right _ _, le_max_right _ _, le_max_right _ _, le_max_right _ _, le_max_right _ _, le_max_right _ _⟩

theorem AudioWithin.refl (a : AudioPort) : AudioWithin a a :=
  ⟨le_max_right _ _, fun _ => .inr, fun _ => .inr, fun f hf => .inr ⟨f, hf, rfl, le_max_right _ _⟩⟩

theorem AllocWithin.refl (a : Allocator) : AllocWithin a a :=
  ⟨le_max_right _ _, le_max_right _ _, fun _ => le_max_right _ _⟩

theorem Within.refl (s : State) : Within s s := ⟨.refl _, .refl _, .refl _⟩

theorem LineWithin.trans {l m n : LineControl} (h : LineWithin l m) (h' : LineWithin m n) : LineWithin l n :=
  ⟨le_max_trans h.idle h'.idle, le_max_trans h.spaceRun h'.spaceRun, le_max_trans h.collisions h'.collisions,
    le_max_trans h.received h'.received, le_max_trans h.sampled h'.sampled, le_max_trans h.heard h'.heard⟩

theorem AudioWithin.trans {a b c : AudioPort} (h : AudioWithin a b) (h' : AudioWithin b c) : AudioWithin a c := by
  refine ⟨le_max_trans h.fresh h'.fresh, fun n hn => ?_, fun k hk => ?_, fun f hf => ?_⟩
  · exact (h'.timer n hn).elim .inl (h.timer n)
  · exact (h'.taken k hk).elim .inl (h.taken k)
  · obtain hf | ⟨g, hg, hslots, hdriven⟩ := h'.out f hf
    · exact .inl hf
    · obtain ⟨hslots', hdriven'⟩ | ⟨i, hi, hslots', hdriven'⟩ := h.out g hg
      · exact .inl ⟨hslots.trans hslots', by omega⟩
      · exact .inr ⟨i, hi, hslots.trans hslots', le_max_trans hdriven' hdriven⟩

theorem AllocWithin.trans {a b c : Allocator} (h : AllocWithin a b) (h' : AllocWithin b c) : AllocWithin a c :=
  ⟨le_max_trans h.sinceSend h'.sinceSend, le_max_trans h.sincePlacement h'.sincePlacement,
    fun v => le_max_trans (h.age v) (h'.age v)⟩

theorem Within.trans {s t u : State} (h : Within s t) (h' : Within t u) : Within s u :=
  ⟨h.line.trans h'.line, h.audio.trans h'.audio, h.alloc.trans h'.alloc⟩

/-- The counts within, the own claim record as it was, and the CLAIM slot as it was or emptied. -/
structure Quiet (s t : State) : Prop where
  counts : Within s t
  record : t.alloc.record = s.alloc.record
  claimSlot : t.line.claimSlot = s.line.claimSlot ∨ t.line.claimSlot = none

theorem Quiet.refl (s : State) : Quiet s s := ⟨.refl s, rfl, .inl rfl⟩

theorem Quiet.trans {s t u : State} (h : Quiet s t) (h' : Quiet t u) : Quiet s u :=
  ⟨h.counts.trans h'.counts, h'.record.trans h.record,
    h'.claimSlot.elim (fun e => h.claimSlot.imp e.trans e.trans) .inr⟩

section
variable {s t : State}

theorem lineWithin_of_same {l l' : LineControl} (hidle : l'.idle = l.idle) (hrun : l'.spaceRun = l.spaceRun)
    (hcollisions : l'.collisions = l.collisions) (hreceiver : l'.receiver = l.receiver) (hrx : l'.rx = l.rx)
    (hecho : l'.echo = l.echo) : LineWithin l l' :=
  ⟨hidle ▸ le_max_right _ _, hrun ▸ le_max_right _ _, hcollisions ▸ le_max_right _ _, hreceiver ▸ le_max_right _ _,
    hrx ▸ le_max_right _ _, hecho ▸ le_max_right _ _⟩

theorem quiet_of_same (hl : t.line = s.line) (ha : t.audio = s.audio) (hal : t.alloc = s.alloc) : Quiet s t where
  counts := ⟨hl ▸ .refl _, ha ▸ .refl _, hal ▸ .refl _⟩
  record := congrArg Allocator.record hal
  claimSlot := .inl (congrArg LineControl.claimSlot hl)

theorem quiet_onRenderer (h : s.OnRenderer t) : Quiet s t := by
  rw [h.1]
  exact quiet_of_same rfl rfl rfl

theorem quiet_cycleMoved (h : s.CycleMoved t) : Quiet s t := quiet_onRenderer h.1

theorem quiet_bump (s : State) (k : Counter) : Quiet s (s.bump k) := quiet_of_same rfl rfl rfl

theorem quiet_bumpTimes (k : Counter) (n : Nat) (s : State) : Quiet s (State.bumpTimes k n s) := by
  rw [State.bumpTimes_eq]
  exact quiet_of_same rfl rfl rfl

theorem quiet_setLine (s : State) {l : LineControl} (h : LineWithin s.line l)
    (hslot : l.claimSlot = s.line.claimSlot ∨ l.claimSlot = none) : Quiet s (s.setLine l) :=
  ⟨⟨h, .refl _, .refl _⟩, rfl, hslot⟩

theorem quiet_setAudio (s : State) {a : AudioPort} (h : AudioWithin s.audio a) : Quiet s { s with audio := a } :=
  ⟨⟨.refl _, h, .refl _⟩, rfl, .inl rfl⟩

theorem quiet_setAlloc (s : State) {a : Allocator} (h : AllocWithin s.alloc a) (hrecord : a.record = s.alloc.record) :
    Quiet s { s with alloc := a } :=
  ⟨⟨.refl _, .refl _, h⟩, hrecord, .inl rfl⟩

/-! ### The voices in turn -/

theorem cleared_age (v : Voice) : ((Quad.const clearedVoice).get v).age = 0 :=
  congrArg VoiceAlloc.age (Quad.get_const _ v)

theorem quiet_forVoices {f : Voice → State → State} (hf : ∀ v s, OnVoice v s (f v s))
    (hage : ∀ v s, ((f v s).voice v).age ≤ max 255 (s.voice v).age) (s : State) : Quiet s (s.forVoices f) := by
  have hframe := onVoices_forVoices hf s
  have hages : ∀ v, ((s.forVoices f).voice v).age ≤ max 255 (s.voice v).age := fun v => by
    obtain ⟨s', -, hvoice, -, hat, -⟩ := forVoices_at hf s v
    rw [hat, ← hvoice]
    exact hage v s'
  unfold OnVoices at hframe
  generalize s.forVoices f = t at hframe hages
  rw [hframe]
  exact ⟨⟨.refl _, .refl _, le_max_right _ _, le_max_right _ _, hages⟩, rfl, .inl rfl⟩

theorem sceneVoice_age (v : Voice) (s : State) : ((s.sceneVoice v).voice v).age ≤ max 255 (s.voice v).age := by
  unfold State.sceneVoice
  split
  · split
    · have hcleared : (((s.setVoice v clearedVoice).setChannel v (s.channel v).sceneOff).voice v).age = 0 :=
        congrArg VoiceAlloc.age (Quad.get_set_same ..)
      omega
    · exact le_max_right _ _
  · exact le_max_right _ _

theorem postVoice_age (held : Option (Nat × Nat)) (before : Quad VoiceAlloc) (v : Voice) (s : State) :
    ((s.postVoice held before v).voice v).age = (s.voice v).age := by
  unfold State.postVoice
  split
  · split
    · simp only [State.postVoiceTarget]
      split <;> rw [postTarget_voice, State.voice_setVoice_same]
    · rw [postVoiceNone_voice]
  · rfl

theorem quiet_abandonAnalysis (s : State) : Quiet s s.abandonAnalysis := by
  unfold State.abandonAnalysis
  split
  · exact quiet_of_same rfl rfl rfl
  · exact .refl s

theorem quiet_sceneTakesEffect (s : State) (sc : Scene) : Quiet s (s.sceneTakesEffect sc) := by
  have hscene : Quiet s { s with scenes := { s.scenes with active := sc, pending := none } } := quiet_of_same rfl rfl rfl
  exact (hscene.trans (quiet_abandonAnalysis _)).trans
    (quiet_forVoices (fun v s => onVoice_sceneVoice s v) sceneVoice_age _)

/-! ### Steps that come about (R10, R18, R34, R66, R135, R139, R142, R144) -/

theorem quiet_leaveWarming (s : State) : Quiet s s.leaveWarming := by
  unfold State.leaveWarming
  split
  · split
    · exact quiet_of_same rfl rfl rfl
    · exact .refl s
  · exact .refl s

theorem quiet_takeTick (s : State) : Quiet s s.takeTick := by
  unfold State.takeTick
  split
  · exact .refl s
  · exact .refl s
  · exact quiet_of_same rfl rfl rfl
  · exact quiet_bump s _

theorem quiet_overwriteWindow (s : State) : Quiet s s.overwriteWindow := by
  unfold State.overwriteWindow
  split
  · split
    · exact (quiet_abandonAnalysis s).trans (quiet_bump _ _)
    · exact .refl s
  · exact .refl s

theorem quiet_takeDueScene (s : State) : Quiet s s.takeDueScene := by
  unfold State.takeDueScene
  split
  · split
    · split
      · exact quiet_sceneTakesEffect s _
      · exact .refl s
    · exact .refl s
  · exact .refl s

theorem quiet_rampFull (s : State) (v : Voice) : Quiet s (s.rampFull v) := by
  simp only [State.rampFull]
  split
  · split
    · exact quiet_of_same rfl rfl rfl
    · exact .refl s
  · exact .refl s

theorem quiet_stopCycle (s : State) (v : Voice) : Quiet s (s.stopCycle v) := by
  simp only [State.stopCycle]
  split
  · split
    · exact quiet_of_same rfl rfl rfl
    · exact .refl s
  · exact .refl s

/-- A step of the table that has come about, but a frame's acceptance. -/
theorem quiet_perform (s : State) (o : Owed) (ho : ∀ a, o ≠ .accept a) : Quiet s (State.perform o s) := by
  cases o with
  | leaveWarming => exact quiet_leaveWarming s
  | analysisTick => exact quiet_takeTick s
  | windowOverwrite => exact quiet_overwriteWindow s
  | sceneDuePoint => exact quiet_takeDueScene s
  | fetchWithdrawal v => exact quiet_cycleMoved (s.cycleMoved_withdrawOverwritten v)
  | placementPointDue v => exact quiet_cycleMoved (s.cycleMoved_placementPointDue v)
  | grainDrop v => exact quiet_cycleMoved (s.cycleMoved_dropGrain v)
  | enteringRampFull v => exact quiet_rampFull s v
  | cycleStop v => exact quiet_stopCycle s v
  | accept a => exact absurd rfl (ho a)

/-! ### Accepted frames (R60 to R65, R68, R93 to R95, R180) -/

theorem quiet_acceptClaim (s : State) (m : ClaimMsg) : Quiet s (s.acceptClaim m) := by
  unfold State.acceptClaim
  split
  · exact quiet_bump s _
  · split
    · exact .refl s
    · split
      · exact quiet_of_same rfl rfl rfl
      · exact quiet_bump s _

theorem quiet_switchScene (s : State) (p : Pos) (m : SceneMsg) : Quiet s (s.switchScene p m) := by
  unfold State.switchScene
  split
  · exact quiet_sceneTakesEffect s _
  · exact quiet_of_same rfl rfl rfl
  · split
    · exact quiet_sceneTakesEffect s _
    · exact quiet_of_same rfl rfl rfl

theorem quiet_acceptScene (s : State) (p : Pos) (m : SceneMsg) : Quiet s (s.acceptScene p m) := by
  unfold State.acceptScene
  split
  · refine Quiet.trans ?_ (quiet_switchScene _ p m)
    split
    · exact quiet_bump s _
    · exact .refl s
  · exact quiet_bump s _

theorem lineWithin_placeReport (l : LineControl) (c : Bool) : LineWithin l (l.placeReport c) := by
  rw [placeReport_eq]
  exact lineWithin_of_same rfl rfl rfl rfl rfl rfl

theorem quiet_placeReport (s : State) (c : Bool) : Quiet s (s.setLine (s.line.placeReport c)) :=
  quiet_setLine s (lineWithin_placeReport s.line c) (.inl (by rw [placeReport_eq]))

/-- An accepted frame, but one that sets the bypass flag. -/
theorem quiet_acceptFrame (s : State) {a : Accepted} (h : a ≠ .bypassOn) : Quiet s (s.acceptFrame a) := by
  cases a with
  | claim m => exact quiet_acceptClaim s m
  | scene p m => exact quiet_acceptScene s p m
  | bypassOn => exact absurd rfl h
  | bypassOff => exact quiet_of_same rfl rfl rfl
  | query c => exact quiet_placeReport s c

/-! ### Jobs that complete (R21, R135, R138) -/

theorem quiet_finishJob (s : State) : Quiet s s.finishJob := quiet_cycleMoved s.cycleMoved_finishJob

theorem quiet_completeFetch (s : State) : Quiet s s.completeFetch := by
  unfold State.completeFetch
  split
  · refine Quiet.trans ?_ (quiet_finishJob _)
    split
    · exact quiet_cycleMoved (s.cycleMoved_fetchDone _ _ _)
    · exact .refl s
  · exact .refl s

theorem quiet_completePlace (s : State) : Quiet s s.completePlace := by
  unfold State.completePlace
  split
  · refine Quiet.trans ?_ (quiet_finishJob _)
    unfold State.placeDone
    split
    · exact Quiet.trans (t := s.placeGrain _ _ _) (quiet_of_same rfl rfl rfl)
        (quiet_cycleMoved (State.cycleMoved_advanceIfRunning _ _ _))
    · exact quiet_of_same rfl rfl rfl
    · exact quiet_cycleMoved (s.cycleMoved_advanceIfRunning _ _)
    · exact .refl s
  · exact .refl s

theorem quiet_expireEntries (s : State) : Quiet s s.expireEntries :=
  .trans (t := { s with map := s.map.filter fun e => !e.expired }) (quiet_of_same rfl rfl rfl) (quiet_bumpTimes _ _ _)

/-! ### A decision up to its record (R111 steps 1 to 6) -/

theorem runPasses_age (s : State) (h : Nat) (v : Voice) : ((s.runPasses h).voices.get v).age ≤ max 255 (s.voice v).age := by
  have hset : ∀ (p : Passes) (w : Voice) (a : VoiceAlloc), (p.voices.get v).age ≤ max 255 (s.voice v).age →
      (w = v → a.age ≤ max 255 (s.voice v).age) →
      ((p.voices.set w a).get v).age ≤ max 255 (s.voice v).age := fun p w a hp ha => by
    by_cases hw : w = v
    · subst hw
      rw [Quad.get_set_same]
      exact ha rfl
    · rwa [Quad.get_set_ne _ _ (Ne.symm hw)]
  have hsucc : ∀ n, n ≤ max 255 (s.voice v).age → satSucc Config.maxAge n ≤ max 255 (s.voice v).age := fun n hn => by
    unfold satSucc Config.maxAge
    split <;> omega
  refine runPasses_keeps (T := fun p => (p.voices.get v).age ≤ max 255 (s.voice v).age) (le_max_right _ _)
    (fun p w hp => ?_) (fun p w hp => ?_)
  · obtain ⟨-, e⟩ | ⟨n, -, -, -, e⟩ | ⟨-, e⟩ := holdVoice_cases s h w p
    · rwa [e]
    · rw [e]
      exact hset p w _ hp fun hw => hsucc _ (hw ▸ hp)
    · rw [e]
      exact hset p w _ hp fun _ => Nat.zero_le _
  · obtain ⟨-, e⟩ | ⟨-, -, e⟩ | ⟨n, b, -, -, -, -, -, e⟩ | ⟨-, -, e⟩ := assignVoice_cases s h w p
    · rwa [e]
    all_goals
      rw [e]
      exact hset p w _ hp fun _ => Nat.zero_le _

theorem quiet_allocate (s : State) : Quiet s s.allocate := by
  unfold State.allocate
  split
  · next h _ _ =>
      exact Quiet.trans (t := { s with alloc := { s.alloc with voices := (s.runPasses h).voices } })
        (quiet_setAlloc s ⟨le_max_right _ _, le_max_right _ _, runPasses_age s h⟩ rfl) (quiet_bumpTimes _ _ _)
  · refine quiet_setAlloc s ⟨le_max_right _ _, le_max_right _ _, fun v => ?_⟩ rfl
    exact cleared_age v ▸ Nat.zero_le _

theorem quiet_countDecision (s : State) : Quiet s s.countDecision := by
  refine quiet_setAlloc s ⟨?_, ?_, fun v => le_max_right _ _⟩ rfl
  · show satSucc Config.refreshDecisions _ ≤ _
    unfold satSucc Config.refreshDecisions
    split <;> omega
  · show satSucc Config.placementLimit _ ≤ _
    unfold satSucc Config.placementLimit
    split <;> omega

theorem quiet_posted (r : Reason) (s : State) : Quiet s (posted r s) := by
  have hfollow : Quiet s { s with follower := followerStep r s.follower } := quiet_of_same rfl rfl rfl
  have hmap : ∀ s : State, Quiet s s.updateMap := fun s => by
    rw [updateMap_eq]
    exact quiet_of_same rfl rfl rfl
  have hscene : ∀ s : State, Quiet s s.takeRestScene := fun s => by
    unfold State.takeRestScene
    split
    · split
      · exact quiet_sceneTakesEffect s _
      · exact .refl s
    · exact .refl s
  have hpost : ∀ (s : State) before, Quiet s (s.postAll before) := fun s before =>
    quiet_forVoices (fun v s => onVoice_postVoice s v _ before) (fun v s => (postVoice_age _ before v s).le.trans
      (le_max_right _ _)) s
  exact ((((hfollow.trans (hmap _)).trans (hscene _)).trans (quiet_countDecision _)).trans (quiet_allocate _)).trans
    (hpost _ _)

/-- A completed segment takes a decision or leaves the records alone (R21, R30). -/
theorem completeSegment_cases (s : State) : Quiet s s.completeSegment ∨
    ∃ r, s.completeSegment = ((s.writeResult r).takeDecision r.reason).finishJob := by
  unfold State.completeSegment
  split
  · split
    · unfold State.segmentDone
      split
      · split
        · split
          · refine .inl (Quiet.trans ?_ (quiet_finishJob _))
            exact quiet_of_same rfl rfl rfl
          · next r _ => exact .inr ⟨r, rfl⟩
        · exact .inl (quiet_finishJob s)
      · exact .inl (quiet_finishJob s)
    · exact .inl (quiet_finishJob s)
  · exact .inl (.refl s)

/-! ### The line (chapter 10) -/

theorem quiet_takeFrameStart (s : State) : Quiet s s.takeFrameStart := by
  unfold State.takeFrameStart
  split
  · exact quiet_setLine s ⟨Nat.zero_le _, le_max_right _ _, le_max_right _ _, Nat.zero_le _, Nat.zero_le _,
      le_max_right _ _⟩ (.inl rfl)
  · exact .refl s

theorem quiet_takeStartBit (s : State) : Quiet s s.takeStartBit := by
  have hstart : Quiet s (s.setLine s.line.startBit) :=
    quiet_setLine s ⟨Nat.zero_le _, le_max_right _ _, le_max_right _ _, le_max_right _ _, Nat.zero_le _,
      le_max_right _ _⟩ (.inl rfl)
  unfold State.takeStartBit
  split
  · exact .refl s
  · exact .refl s
  all_goals exact hstart

theorem quiet_atMark (s : State) : Quiet s (s.setLine s.line.atMark) :=
  quiet_setLine s ⟨Nat.zero_le _, Nat.zero_le _, le_max_right _ _, le_max_right _ _, Nat.zero_le _, le_max_right _ _⟩
    (.inl rfl)

/-- The receiver moves to a state that holds at most 64 characters. -/
theorem quiet_receiver (s : State) {r : Receiver} (h : r.count ≤ 64) :
    Quiet s (s.setLine { s.line with receiver := r }) :=
  quiet_setLine s ⟨le_max_right _ _, le_max_right _ _, le_max_right _ _, le_max_of_le_left h, le_max_right _ _,
    le_max_right _ _⟩ (.inl rfl)

theorem quiet_badFrame (s : State) : Quiet s s.badFrame :=
  (quiet_receiver s (r := .skippingError) (Nat.zero_le _)).trans (quiet_bump _ _)

/-- A character kept leaves the frame at no more than 64 of them (R162). -/
theorem kept_length {straps : StrapPins} {chars : List Byte} (h : charTest straps chars = .keep) : chars.length ≤ 64 := by
  unfold charTest at h
  split at h
  · exact (by decide : 1 ≤ 64)
  · exact (by decide : 2 ≤ 64)
  · exact (by decide : 3 ≤ 64)
  · split at h
    · cases h
    · next hlength => exact Nat.not_lt.1 hlength

theorem quiet_takeChar (s : State) (c : Byte) : Quiet s (s.takeChar c) := by
  simp only [State.takeChar]
  split
  · refine (quiet_atMark s).trans ?_
    unfold State.appendChar
    split
    · exact quiet_badFrame _
    · exact quiet_receiver _ (Nat.zero_le _)
    · next hkeep => exact quiet_receiver _ (kept_length hkeep)
  all_goals exact quiet_atMark s

theorem quiet_takeReturnToMark (s : State) : Quiet s s.takeReturnToMark := by
  simp only [State.takeReturnToMark]
  split
  · exact (quiet_atMark s).trans (quiet_badFrame _)
  · exact (quiet_atMark s).trans (quiet_receiver _ (Nat.zero_le _))
  · exact quiet_atMark s
  · exact quiet_atMark s
  · exact quiet_atMark s
  · exact .refl s

theorem quiet_judge (s : State) (chars : List Byte) (p : Pos) (ws : Bool) : Quiet s (s.judge chars p ws) := by
  have hclash : ∀ (s : State) id ws, Quiet s (s.clashTest id ws) := fun s id ws => by
    unfold State.clashTest
    split
    · exact (quiet_setLine s (l := { s.line with clash := true }) (lineWithin_of_same rfl rfl rfl rfl rfl rfl)
        (.inl rfl)).trans (quiet_bump _ _)
    · exact .refl s
  have hroute : ∀ (s : State) h payload, Quiet s (s.route p h payload) := fun s h payload => by
    unfold State.route
    split
    · exact quiet_of_same rfl rfl rfl
    · exact quiet_bump s _
    · exact .refl s
  unfold State.judge
  split
  · exact quiet_bump s _
  · split
    · next h _ _ =>
        exact ((quiet_setLine s (l := { s.line with lastSender := headerSender h })
          (lineWithin_of_same rfl rfl rfl rfl rfl rfl) (.inl rfl)).trans (hclash _ _ _)).trans (hroute _ _ _)
    · exact quiet_bump s _

theorem quiet_takeBoundary (s : State) : Quiet s s.takeBoundary := by
  have hready : Quiet s (s.setLine s.line.readyAtBoundary) :=
    quiet_setLine s ⟨le_max_of_le_left (show 12 ≤ 74 by decide), Nat.zero_le _, le_max_right _ _, Nat.zero_le _, Nat.zero_le _,
      le_max_right _ _⟩ (.inl rfl)
  unfold State.takeBoundary
  split
  · simp only [State.endFrame]
    split
    · exact hready
    · exact hready.trans (quiet_judge _ _ _ _)
    · exact hready.trans (quiet_setLine _ (lineWithin_of_same rfl rfl rfl rfl rfl rfl) (.inl rfl))
    · exact hready
    · exact .refl s
    · exact .refl s
  · exact .refl s

theorem quiet_beginSend (s : State) : Quiet s s.beginSend := by
  unfold State.beginSend
  split
  · exact quiet_setLine s ⟨le_max_right _ _, le_max_right _ _, le_max_right _ _, le_max_right _ _, le_max_right _ _,
      Nat.zero_le _⟩ (.inl rfl)
  · exact quiet_setLine s ⟨le_max_right _ _, le_max_right _ _, Nat.zero_le _, le_max_right _ _, le_max_right _ _,
      Nat.zero_le _⟩ (.inl rfl)

/-- The end of a send, at its success or its give-up: the collision count 0 and its slot emptied (R171, R173). -/
theorem quiet_sendEnds (s : State) (f : FrameInHand) (own : StationId) :
    Quiet s (s.setLine (LineControl.emptySlot f { s.line with
      lastSender := own, collisions := 0, collisionSlot := none, frameInHand := none,
      echo := [] }).settleTransmitter) := by
  rw [emptySlot_eq, settleTransmitter_eq]
  refine quiet_setLine s ⟨le_max_right _ _, le_max_right _ _, Nat.zero_le _, le_max_right _ _, le_max_right _ _,
    Nat.zero_le _⟩ ?_
  show (if _ then _ else _) = _ ∨ (if _ then _ else _) = _
  split
  · exact .inr rfl
  · exact .inl rfl

theorem quiet_collide (s : State) (f : FrameInHand) : Quiet s (s.collide f) := by
  simp only [State.collide]
  refine (quiet_bump s .collide).trans ?_
  generalize s.bump .collide = u
  generalize (if s.line.collisionSlot = some f.content.slot then s.line.collisions else 0) = held
  split
  · next hheld =>
      exact quiet_setLine u ⟨le_max_right _ _, le_max_right _ _, le_max_of_le_left (by
        have : held + 1 < 8 := hheld
        show held + 1 ≤ 7
        omega), le_max_right _ _, le_max_right _ _, Nat.zero_le _⟩ (.inl rfl)
  · exact (quiet_sendEnds u f u.line.lastSender).trans (quiet_bump _ _)

theorem quiet_reportSuccess (s : State) (k : SlotContent) : Quiet s (s.reportSuccess k) := by
  cases k with
  | claim r => exact quiet_setAlloc s ⟨Nat.zero_le _, le_max_right _ _, fun _ => le_max_right _ _⟩ rfl
  | report clear =>
    cases clear
    · exact .refl s
    · exact quiet_of_same rfl rfl rfl

theorem quiet_takeEcho (s : State) (heard : Option Byte) : Quiet s (s.takeEcho heard) := by
  unfold State.takeEcho State.checkEcho
  split
  · split
    · split
      · exact quiet_setLine s ⟨le_max_right _ _, le_max_right _ _, le_max_right _ _, le_max_right _ _,
          le_max_right _ _, Nat.zero_le _⟩ (.inl rfl)
      · exact (quiet_sendEnds s _ s.straps.id).trans (quiet_reportSuccess _ _)
    · exact quiet_collide s _
  · exact .refl s

/-! ### The audio ports (sections 1.1, 1.2, 1.6 and 1.7) -/

theorem quiet_takeFrameSync (s : State) : Quiet s s.takeFrameSync := by
  have hreturn : Quiet s s.audioReturn := by
    unfold State.audioReturn
    split
    · exact Quiet.trans (t := { s with audio := { s.audio with state := .present, fresh := 0 } })
        (quiet_setAudio s ⟨Nat.zero_le _, fun _ => .inr, fun _ => .inr, fun f hf => .inr ⟨f, hf, rfl, le_max_right _ _⟩⟩)
        (quiet_of_same rfl rfl rfl)
    · exact .refl s
  refine hreturn.trans (quiet_setAudio s.audioReturn ⟨le_max_right _ _, fun n hn => .inl ?_, fun k hk => .inl ?_,
    fun f hf => .inl ?_⟩)
  · cases hn
    decide
  · cases hk
    decide
  · cases hf
    exact ⟨rfl, Nat.zero_le _⟩

theorem audioWithin_passFall (a : AudioPort) (afsync : Bool) : AudioWithin a (a.passFall afsync) := by
  refine ⟨le_max_right _ _, fun _ => .inr, fun _ => .inr, fun f hf => ?_⟩
  obtain ⟨g, hg, rfl⟩ := Option.map_eq_some_iff.1 hf
  refine .inr ⟨g, hg, rfl, ?_⟩
  show satSucc Config.frameBits g.driven ≤ _
  unfold satSucc Config.frameBits
  split <;> omega

theorem audioWithin_takeBit (a : AudioPort) {k : Nat} (hk : k < 23) (adin : Bool) : AudioWithin a (a.takeBit k adin) :=
  ⟨le_max_right _ _, fun _ => .inr, fun j hj => .inl (by cases hj; omega), fun f hf =>
    .inr ⟨f, hf, rfl, le_max_right _ _⟩⟩

theorem quiet_arrival (s : State) (x : Sample) : Quiet s { ((State.captureSample x s).trimMarks).positionDue with
    owed := ((State.captureSample x s).trimMarks).positionDue.owedAtArrival } := by
  have hcapture : Quiet s (s.captureSample x) := by
    refine ⟨⟨.refl _, ⟨?_, fun _ => .inr, fun k hk => .inl ?_, fun f hf => .inr ⟨f, hf, rfl, le_max_right _ _⟩⟩,
      .refl _⟩, rfl, .inl rfl⟩
    · show satSucc Config.ringSize _ ≤ _
      unfold satSucc Config.ringSize
      split <;> omega
    · cases hk
      decide
  have htrim : ∀ s : State, Quiet s s.trimMarks := fun s => by
    simp only [State.trimMarks]
    split
    · exact .refl s
    all_goals exact quiet_of_same rfl rfl rfl
  exact (hcapture.trans (htrim _)).trans (quiet_of_same rfl rfl rfl)

end

end Sys2Proof.Counts

/-! PROOF. The counts of every block and the own claim record stay in their ranges (sections 7.6, 8.1 and 11.5). -/

namespace Sys2Proof.Ranges

open Sys2Proof.Machine Sys2Proof.Body Sys2Proof.Decision Sys2Proof.ChannelLaw Sys2Proof.Counts
  Sys2Proof.ReportsAndEchoes Sys2Proof.Hush Sys2Proof.Targets

/-! ### Where the own record is made (R119, R123, R124, R125) -/

/-- The own claim record has become r, and the CLAIM slot holds it, or what it held before, or nothing. -/
structure Recorded (r : ClaimRecord) (s t : State) : Prop where
  counts : Within s t
  record : t.alloc.record = r
  claimSlot : t.line.claimSlot = some r ∨ t.line.claimSlot = s.line.claimSlot ∨ t.line.claimSlot = none

/-- The records that the station makes: an empty one, one of the held note alone, and a decision's. -/
def OwnRecord (t : State) (r : ClaimRecord) : Prop :=
  r = emptyRecord ∨ r = { live := t.follower.heldNote, entries := [] } ∨
    r = buildRecord t.follower.heldNote t.alloc.voices

section
variable {s t u : State} {r : ClaimRecord}

theorem recorded_after (h : Quiet s t) (h' : Recorded r t u) : Recorded r s u :=
  ⟨h.counts.trans h'.counts, h'.record, h'.claimSlot.imp_right fun e =>
    e.elim (fun e => h.claimSlot.imp e.trans e.trans) .inr⟩

theorem recorded_before (h : Recorded r s t) (h' : Quiet t u) : Recorded r s u :=
  ⟨h.counts.trans h'.counts, h'.record.trans h.record,
    h'.claimSlot.elim (fun e => h.claimSlot.imp e.trans (Or.imp e.trans e.trans)) (fun e => .inr (.inr e))⟩

theorem recorded_keepRecord (s : State) (r : ClaimRecord) : Recorded r s (s.keepRecord r) :=
  ⟨⟨.refl _, .refl _, le_max_right _ _, le_max_right _ _, fun _ => le_max_right _ _⟩, rfl, .inr (.inl rfl)⟩

theorem lineWithin_placeClaim (l : LineControl) (r : ClaimRecord) : LineWithin l (l.placeClaim r) := by
  rw [LineControl.placeClaim_placed l r]
  exact lineWithin_of_same rfl rfl rfl rfl rfl rfl

theorem recorded_placeRecord (s : State) : Recorded s.alloc.record s s.placeRecord :=
  ⟨⟨lineWithin_placeClaim _ _, .refl _, le_max_right _ _, Nat.zero_le _, fun _ => le_max_right _ _⟩, rfl,
    .inl (congrArg LineControl.claimSlot (LineControl.placeClaim_placed s.line s.alloc.record))⟩

/-- A record made and placed at once (R123, R124, R125). -/
theorem recorded_placed (s : State) (r : ClaimRecord) : Recorded r s (s.keepRecord r).placeRecord := by
  have hkept := recorded_keepRecord s r
  have hplaced := recorded_placeRecord (s.keepRecord r)
  exact ⟨hkept.counts.trans hplaced.counts, hplaced.record, hplaced.claimSlot⟩

theorem quiet_clearTargets (s : State) : Quiet s s.clearTargets := by
  refine quiet_setAlloc s ⟨le_max_right _ _, le_max_right _ _, fun v => ?_⟩ rfl
  exact cleared_age v ▸ Nat.zero_le _

theorem recorded_withdrawClaims (s : State) : Recorded emptyRecord s s.withdrawClaims :=
  recorded_after (quiet_clearTargets s) (recorded_placed _ _)

theorem recorded_bypassOn (s : State) :
    Recorded { live := s.follower.heldNote, entries := [] } s s.bypassOn := by
  have hbypass : Quiet s { s with scenes := { s.scenes with bypass := true } } := quiet_of_same rfl rfl rfl
  have hposted : ∀ v (s : State), OnVoice v s (if s.enabled v then s.postNoTarget v else s) := fun v s => by
    split
    · exact onVoice_setChannel s v _
    · exact .refl v s
  have hage : ∀ v (s : State), ((if s.enabled v then s.postNoTarget v else s).voice v).age ≤ max 255 (s.voice v).age :=
    fun v s => by
      split
      · exact le_max_right _ _
      · exact le_max_right _ _
  exact recorded_after ((hbypass.trans (quiet_clearTargets _)).trans (quiet_forVoices hposted hage _))
    (recorded_placed _ _)

theorem recorded_loseAudio (s : State) : Recorded emptyRecord s s.loseAudio := by
  have hlose : Quiet s { s with audio := s.audio.lose } :=
    quiet_setAudio s ⟨le_max_right _ _, nofun, nofun, nofun⟩
  refine recorded_after (hlose.trans ?_) (recorded_withdrawClaims _)
  exact quiet_of_same rfl rfl rfl

theorem quiet_endSendForBreak (s : State) : Quiet s s.endSendForBreak := by
  unfold State.endSendForBreak
  split
  · exact quiet_collide s _
  · exact .refl s

theorem recorded_takeHush (s : State) : Recorded emptyRecord s s.takeHush := by
  rw [takeHush_eq]
  refine recorded_after ((quiet_endSendForBreak s).trans (quiet_bump _ .hush)) ?_
  generalize s.endSendForBreak.bump .hush = u
  refine ⟨⟨⟨Nat.zero_le _, le_max_left _ _, Nat.zero_le _, Nat.zero_le _, Nat.zero_le _, Nat.zero_le _⟩, .refl _,
    le_max_right _ _, Nat.zero_le _, fun v => ?_⟩, rfl, .inl rfl⟩
  exact cleared_age v ▸ Nat.zero_le _

/-- A decision's record is built from what it leaves of the follower and the voices (R119, R121). -/
theorem recorded_takeDecision (r : Reason) (s : State) :
    Recorded (buildRecord (s.takeDecision r).follower.heldNote (s.takeDecision r).alloc.voices) s (s.takeDecision r) := by
  have hposted := quiet_posted r s
  rw [takeDecision_eq]
  generalize posted r s = u at hposted ⊢
  refine recorded_after hposted ?_
  rw [State.recordDecision, State.sendTest]
  split
  · exact recorded_placed u _
  · exact recorded_keepRecord u _

/-- A completed segment leaves the records alone, or makes a decision's. -/
theorem quiet_or_recorded_completeSegment (s : State) : Quiet s s.completeSegment ∨
    Recorded (buildRecord s.completeSegment.follower.heldNote s.completeSegment.alloc.voices) s s.completeSegment := by
  refine (completeSegment_cases s).imp_right ?_
  rintro ⟨r, e⟩
  have hdecided := recorded_after (s := s) (t := s.writeResult r) (quiet_of_same rfl rfl rfl)
    (recorded_takeDecision r.reason (s.writeResult r))
  rw [e]
  generalize (s.writeResult r).takeDecision r.reason = t at hdecided ⊢
  exact recorded_before hdecided (quiet_finishJob t)

end

/-! ### Properties of the counts and the records -/

section
variable {N R : State → Prop} (k : KeptByStep N) (quiet : ∀ {s t}, Quiet s t → R s → R t)
  (recorded : ∀ {s t r}, Recorded r s t → OwnRecord t r → N t → R s → R t)
  (released : ∀ pins b l l' p, R (State.released pins b l l' p))
include quiet recorded

theorem counts_acceptFrame (s : State) (a : Accepted) (hn : N (s.acceptFrame a)) (hr : R s) : R (s.acceptFrame a) := by
  by_cases ha : a = .bypassOn
  · subst ha
    have hbody := sameBody_bypassOn s
    unfold SameBody at hbody
    have hfollower : s.bypassOn.follower = s.follower :=
      (congrArg State.follower hbody).trans rfl
    revert hn
    simp only [State.acceptFrame, State.acceptBypassOn]
    split
    · exact fun _ => hr
    · exact fun hn => recorded (recorded_bypassOn s) (.inr (.inl (by rw [hfollower]))) hn hr
  · exact quiet (quiet_acceptFrame s ha) hr

include k released

/-- A property of the counts and the records, beside one that every step keeps. -/
theorem keptByStep_of_counts : KeptByStep fun s => N s ∧ R s where
  perform s o ho h := by
    obtain ⟨hn, hr⟩ := h
    have hn' := k.perform s o ho hn
    have hr' : R { s with owed := s.owed.erase o } := quiet (s := s) (quiet_of_same rfl rfl rfl) hr
    refine ⟨hn', ?_⟩
    by_cases hframe : ∃ a, o = .accept a
    · obtain ⟨a, rfl⟩ := hframe
      exact counts_acceptFrame quiet recorded _ a hn' hr'
    · exact quiet (quiet_perform _ o fun a ha => hframe ⟨a, ha⟩) hr'
  accept s a h := ⟨k.accept s a h.1, counts_acceptFrame quiet recorded s a (k.accept s a h.1) h.2⟩
  sync s ho h := ⟨k.sync s ho h.1, quiet (quiet_takeFrameSync s) h.2⟩
  loss s ho h := ⟨k.loss s ho h.1, recorded (recorded_loseAudio s) (.inl rfl) (k.loss s ho h.1) h.2⟩
  segment s ho h := ⟨k.segment s ho h.1, (quiet_or_recorded_completeSegment s).elim (fun q => quiet q h.2)
    fun q => recorded q (.inr (.inr rfl)) (k.segment s ho h.1) h.2⟩
  expire s ho h := ⟨k.expire s ho h.1, quiet (quiet_expireEntries s) h.2⟩
  fetch s ho h := ⟨k.fetch s ho h.1, quiet (quiet_completeFetch s) h.2⟩
  place s ho h := ⟨k.place s ho h.1, quiet (quiet_completePlace s) h.2⟩
  frameStart s h := ⟨k.frameStart s h.1, quiet (quiet_takeFrameStart s) h.2⟩
  startBit s h := ⟨k.startBit s h.1, quiet (quiet_takeStartBit s) h.2⟩
  char s c h := ⟨k.char s c h.1, quiet (quiet_takeChar s c) h.2⟩
  returnToMark s h := ⟨k.returnToMark s h.1, quiet (quiet_takeReturnToMark s) h.2⟩
  boundary s h := ⟨k.boundary s h.1, quiet (quiet_takeBoundary s) h.2⟩
  hush s h := ⟨k.hush s h.1, recorded (recorded_takeHush s) (.inl rfl) (k.hush s h.1) h.2⟩
  idle s i hi h := ⟨k.idle s i hi h.1, quiet (quiet_setLine s ⟨by show i ≤ _; omega, le_max_right _ _, le_max_right _ _,
    le_max_right _ _, le_max_right _ _, le_max_right _ _⟩ (.inl rfl)) h.2⟩
  send s h := ⟨k.send s h.1, quiet (quiet_beginSend s) h.2⟩
  echo s c h := ⟨k.echo s c h.1, quiet (quiet_takeEcho s c) h.2⟩
  hear s e he h := ⟨k.hear s e he h.1, quiet (quiet_setLine s ⟨le_max_right _ _, le_max_right _ _, le_max_right _ _,
    le_max_right _ _, le_max_right _ _, le_max_of_le_left he⟩ (.inl rfl)) h.2⟩
  bits s b hb h := ⟨k.bits s b hb h.1, quiet (quiet_setLine s ⟨le_max_right _ _, le_max_right _ _, le_max_right _ _,
    le_max_right _ _, le_max_of_le_left hb, le_max_right _ _⟩ (.inl rfl)) h.2⟩
  space s h := ⟨k.space s h.1, quiet (quiet_setLine s ⟨le_max_right _ _, le_max_right _ _, le_max_right _ _,
    le_max_right _ _, Nat.zero_le _, le_max_right _ _⟩ (.inl rfl)) h.2⟩
  spaceRun s n hn h := ⟨k.spaceRun s n hn h.1, quiet (quiet_setLine s ⟨le_max_right _ _, by show n ≤ _; omega,
    le_max_right _ _, le_max_right _ _, le_max_right _ _, le_max_right _ _⟩ (.inl rfl)) h.2⟩
  pending s p h := ⟨k.pending s p h.1, quiet (s := s) (quiet_of_same rfl rfl rfl) h.2⟩
  assert s h := ⟨k.assert s h.1, quiet (s := State.released s.straps true s.audioIn s.lineIn s.pending)
    (quiet_of_same rfl rfl rfl) (released _ _ _ _ _)⟩
  release s pins m h := ⟨k.release s pins m h.1, released _ _ _ _ _⟩
  audioIn s l h := ⟨k.audioIn s l h.1, quiet (s := s) (quiet_of_same rfl rfl rfl) h.2⟩
  lineIn s l h := ⟨k.lineIn s l h.1, quiet (s := s) (quiet_of_same rfl rfl rfl) h.2⟩
  fall s b h := ⟨k.fall s b h.1, quiet (quiet_setAudio s (audioWithin_passFall _ _)) h.2⟩
  bit s n b hn h := ⟨k.bit s n b hn h.1, quiet (quiet_setAudio s (audioWithin_takeBit _ hn _)) h.2⟩
  arrival s x ho h := ⟨k.arrival s x ho h.1, quiet (quiet_arrival s x) h.2⟩
  tick s n hn h := ⟨k.tick s n hn h.1, quiet (quiet_setAudio s ⟨le_max_right _ _, fun m hm => .inl (by
    cases hm; exact hn), fun _ => .inr, fun f hf => .inr ⟨f, hf, rfl, le_max_right _ _⟩⟩) h.2⟩

end

/-! ### The counts of the line, the audio ports and the decisions -/

theorem always_kept : KeptByStep fun _ => True := by
  constructor
  · constructor <;> intros <;> trivial
  all_goals
    intros
    trivial

theorem within_released (s : State) (pins : StrapPins) (b : Bool) (l : List (List AudioEdge)) (l' : List Bool)
    (p : List Instr) : Within s (State.released pins b l l' p) := by
  refine ⟨⟨Nat.zero_le _, Nat.zero_le _, Nat.zero_le _, Nat.zero_le _, ?_, Nat.zero_le _⟩,
    ⟨Nat.zero_le _, nofun, nofun, nofun⟩, ⟨le_max_left _ _, le_max_left _ _, fun v => ?_⟩⟩
  · cases b <;> exact Nat.zero_le _
  · exact cleared_age v ▸ Nat.zero_le _

/-- A step leaves each of these counts no higher than it was, or within its range. -/
theorem within_step {s t : State} (e : step s = .next t) : Within s t :=
  ((keptByStep_of_counts (R := Within s) always_kept (fun q h => h.trans q.counts)
    (fun q _ _ h => h.trans q.counts) (within_released s)).stepKeeps ⟨trivial, .refl s⟩ e).2

theorem lineCountsStayBounded : Clause.LineCountsStayBounded := by
  rintro s t ⟨hidle, hrun, hcollisions, hreceived, hsampled, hheard⟩ e
  have h := (within_step e).line
  exact ⟨h.idle.trans (max_le le_rfl hidle), h.spaceRun.trans (max_le le_rfl hrun),
    h.collisions.trans (max_le le_rfl hcollisions), h.received.trans (max_le le_rfl hreceived),
    h.sampled.trans (max_le le_rfl hsampled), h.heard.trans (max_le le_rfl hheard)⟩

theorem audioCountsStayBounded : Clause.AudioCountsStayBounded := by
  rintro s t ⟨hfresh, htimer, htaken, hout⟩ e
  have h := (within_step e).audio
  refine ⟨h.fresh.trans (max_le le_rfl hfresh), fun n hn => (h.timer n hn).elim id (htimer n),
    fun k hk => (h.taken k hk).elim id (htaken k), fun f hf => ?_⟩
  obtain hopened | ⟨g, hg, hslots, hdriven⟩ := h.out f hf
  · exact hopened
  · obtain ⟨hslots', hdriven'⟩ := hout g hg
    exact ⟨hslots.trans hslots', hdriven.trans (max_le le_rfl hdriven')⟩

theorem decisionsBounded_of_within {s t : State} (h : Within s t) (hs : s.decisionsBounded) : t.decisionsBounded := by
  obtain ⟨hsend, hplacement, hages⟩ := hs
  exact ⟨h.alloc.sinceSend.trans (max_le le_rfl hsend), h.alloc.sincePlacement.trans (max_le le_rfl hplacement),
    fun v => (h.alloc.age v).trans (max_le le_rfl (hages v))⟩

theorem decisionCountsStayBounded : Clause.DecisionCountsStayBounded :=
  fun _ _ h e => decisionsBounded_of_within (within_step e) h

/-! ### Counters (R182) -/

theorem countersBounded_of_grown {s t : State} (h : s.Grown t) (hs : s.countersBounded) : t.countersBounded :=
  fun k => (h.2 k).2 (hs k)

theorem countersBounded_zero : ∀ k : Counter, zeroCounters.get k ≤ 65535 := fun k => by cases k <;> decide

theorem counters_keptByStep : KeptByStep State.countersBounded where
  perform s o _ h := countersBounded_of_grown (State.grown_perform { s with owed := s.owed.erase o } o) h
  accept s a h := countersBounded_of_grown (s.grown_acceptFrame a) h
  sync s _ h := countersBounded_of_grown s.grown_takeFrameSync h
  loss s _ h := countersBounded_of_grown s.grown_loseAudio h
  segment s _ h := countersBounded_of_grown s.grown_completeSegment h
  expire s _ h := countersBounded_of_grown s.grown_expireEntries h
  fetch s _ h := countersBounded_of_grown s.grown_completeFetch h
  place s _ h := countersBounded_of_grown s.grown_completePlace h
  frameStart s h := countersBounded_of_grown s.grown_takeFrameStart h
  startBit s h := countersBounded_of_grown s.grown_takeStartBit h
  char s c h := countersBounded_of_grown (s.grown_takeChar c) h
  returnToMark s h := countersBounded_of_grown s.grown_takeReturnToMark h
  boundary s h := countersBounded_of_grown s.grown_takeBoundary h
  hush s h := countersBounded_of_grown s.grown_takeHush h
  idle _ _ _ h := h
  send s h := countersBounded_of_grown s.grown_beginSend h
  echo s x h := (s.grown_takeEcho x).elim (fun g k => (g k).2 (h k)) fun hzero k => by
    rw [hzero]
    exact countersBounded_zero k
  hear _ _ _ h := h
  bits _ _ _ h := h
  space _ h := h
  spaceRun _ _ _ h := h
  pending _ _ h := h
  assert _ _ := countersBounded_zero
  release _ _ _ _ := countersBounded_zero
  audioIn _ _ h := h
  lineIn _ _ h := h
  fall _ _ h := h
  bit _ _ _ _ h := h
  arrival s x _ h := by
    have hsame : ((State.captureSample x s).trimMarks).positionDue.counters = s.counters := by
      simp only [State.positionDue, State.trimMarks]
      split <;> rfl
    exact fun k => hsame ▸ h k
  tick _ _ _ h := h

theorem countersStayInSixteenBits : Clause.CountersStayInSixteenBits := fun _ _ => counters_keptByStep.stepKeeps

/-! ### Ramps (R127) -/

/-- A ramp count in 0..256 and a leave rate of 1 or 4. -/
def RampBounded (c : Channel) : Prop := c.ramp ≤ 256 ∧ (c.leaveRate = 1 ∨ c.leaveRate = 4)

theorem rampBounded_kept : ChannelKept RampBounded where
  restated := by
    rintro c d ⟨-, hramp, hrate⟩ ⟨hbound, hleave⟩
    exact ⟨hramp ▸ hbound, hrate.elim (fun e => e ▸ hleave) id⟩
  emptied := by
    rintro d ⟨-, hramp, hrate⟩
    exact ⟨hramp ▸ Nat.zero_le _, .inl hrate⟩
  grain _ _ _ _ _ h := h
  passed := by
    rintro q c ⟨hbound, hleave⟩
    unfold Channel.passPosition Channel.advanceRamp
    split
    · split
      · split
        · exact ⟨Nat.min_le_right _ _, hleave⟩
        · exact ⟨hbound, hleave⟩
      · exact ⟨hbound, hleave⟩
    · exact ⟨le_refl 256, hleave⟩
    · exact ⟨le_refl 256, hleave⟩
    · exact ⟨(Nat.sub_le _ _).trans hbound, hleave⟩
    · exact ⟨Nat.zero_le _, hleave⟩
    · exact ⟨Nat.zero_le _, hleave⟩

theorem rampsStayBounded : Clause.RampsStayBounded := fun _ _ => lawful_step rampBounded_kept

/-! ### Records (R119) -/

theorem emptyRecord_sound : emptyRecord.sound := ⟨nofun, .nil, nofun⟩

theorem buildRecord_sound {s : State} (hnotes : s.notesInTable) (hages : ∀ v : Voice, (s.voice v).age ≤ 255) :
    (buildRecord s.follower.heldNote s.alloc.voices).sound := by
  obtain ⟨-, hheld, -, htargets⟩ := hnotes
  have hentry : ∀ {v e}, claimEntry s.alloc.voices v = some e →
      e.voice = v ∧ (s.voice v).target = some e.note ∧ e.age = (s.voice v).age := fun {v e} he => by
    obtain ⟨n, hn, rfl⟩ := Option.map_eq_some_iff.1 he
    exact ⟨rfl, hn, rfl⟩
  have horder : Voice.all.Pairwise fun a b => a.index < b.index := by decide
  refine ⟨hheld, List.pairwise_filterMap.2 (horder.imp fun {a b} hlt x hx y hy => ?_), fun e he => ?_⟩
  · rw [(hentry hx).1, (hentry hy).1]
    exact hlt
  · obtain ⟨v, -, hv⟩ := List.mem_filterMap.1 he
    obtain ⟨-, htarget, hage⟩ := hentry hv
    exact ⟨htargets v e.note htarget, hage ▸ hages v⟩

theorem ownRecord_sound {t : State} {r : ClaimRecord} (h : OwnRecord t r) (hnotes : t.notesInTable)
    (hages : ∀ v : Voice, (t.voice v).age ≤ 255) : r.sound := by
  have hheld : ∀ n, t.follower.heldNote = some n → noteSound n := hnotes.2.1
  obtain rfl | rfl | rfl := h
  · exact emptyRecord_sound
  · exact ⟨hheld, .nil, nofun⟩
  · exact buildRecord_sound hnotes hages

/-- A record of the own making is sound, and the CLAIM slot holds it or a record that was sound before. -/
theorem recordsSound_of_recorded {s t : State} {r : ClaimRecord} (h : Recorded r s t) (hr : r.sound)
    (hs : s.recordsSound) : t.recordsSound := by
  refine ⟨h.record ▸ hr, fun c hc => ?_⟩
  obtain heq | heq | heq := h.claimSlot
  · cases heq.symm.trans hc
    exact hr
  · exact hs.2 c (heq.symm.trans hc)
  · cases heq.symm.trans hc

theorem recordsSound_of_quiet {s t : State} (h : Quiet s t) (hs : s.recordsSound) : t.recordsSound := by
  refine ⟨h.record ▸ hs.1, fun c hc => ?_⟩
  obtain heq | heq := h.claimSlot
  · exact hs.2 c (heq.symm.trans hc)
  · cases heq.symm.trans hc

theorem recordsStaySound : Clause.RecordsStaySound := by
  intro s t hnotes hdecisions hrecords e
  refine ((keptByStep_of_counts (R := fun s => s.decisionsBounded ∧ s.recordsSound)
    (targetLaw_cycleBlind notes_targetLaw).bodyKept.keptByStep ?_ ?_ ?_).stepKeeps
    ⟨hnotes, hdecisions, hrecords⟩ e).2.2
  · rintro s t h ⟨hd, hr⟩
    exact ⟨decisionsBounded_of_within h.counts hd, recordsSound_of_quiet h hr⟩
  · rintro s t r h hown hn ⟨hd, hr⟩
    have hd' := decisionsBounded_of_within h.counts hd
    exact ⟨hd', recordsSound_of_recorded h (ownRecord_sound hown hn hd'.2.2) hr⟩
  · intro pins b l l' p
    refine ⟨⟨le_refl 16, le_refl 8, fun v => ?_⟩, emptyRecord_sound, nofun⟩
    exact cleared_age v ▸ Nat.zero_le _

/-- Settles O53: counters and ramps by laws of their own, the other counts by one that is no higher or within its range,
and the records beside the notes. -/
theorem countsStayInTheirRanges : Obligations.CountsStayInTheirRanges :=
  ⟨countersStayInSixteenBits, rampsStayBounded, lineCountsStayBounded, audioCountsStayBounded,
    decisionCountsStayBounded, recordsStaySound⟩

end Sys2Proof.Ranges
